-- ==== Sys2Proof/Word.lean ====
section
/-! DEFINITION. The word types of the SmartPort bus engine and their plainest arithmetic
(spec/00_scope.md rules R25, R26, R27). -/

namespace Sys2Proof

/-- An unsigned 8-bit value (R25). -/
abbrev Byte := BitVec 8

/-- A 32-bit value: TIMER, the wait latches and limits, a CSR word (R24, R44, R54). -/
abbrev Word32 := BitVec 32

/-- The phase vector `PHASE[3:0]`, bit i being phase line PHi (R48). -/
abbrev Phase := BitVec 4

/-- `XOR(xs)`: the XOR of all elements, 0 for the empty list (R27). -/
def xorBytes : List Byte → Byte
  | [] => 0
  | x :: xs => x ^^^ xorBytes xs

/-- One bit as a 32-bit word. -/
def bit32 (b : Bool) : Word32 := if b then 1 else 0

end Sys2Proof
end

