-- ==== Sys2Proof/Config.lean ====
section
/-! DEFINITION. What an instantiation of the block fixes (spec/00_scope.md section 3) and the free values.

The parameters are plain data, held in State and written by no operation (spec/20_memory.md R75): a claim about
every state is a claim about every choice of the OPEN ones, which is what 00_scope.md section 3 asks
(notes/assumptions/3.md). -/

namespace Sys2Proof

/-- The capability classes of OPCODE_CAP (R21). `noCap` is the spec's NONE. -/
inductive Cap where
  | noCap | status | control | openCap | closeCap | read | write
deriving DecidableEq, Repr

/-- The parameters of 00_scope.md rules R7 to R24, and CSR_BASE of 20_memory.md R69. RX_MARGIN (R11) and
TIMER_WIDTH (R24) are constants, and MAX_PAYLOAD (R8) is derived. -/
structure Params where
  /-- BUF_LEN, the capacity of one raw-packet buffer (R7). -/
  bufLen : Nat
  /-- CMD_PACKET_LEN, the raw bytes the prefetch captures (R9, OPEN). -/
  cmdPacketLen : Nat
  /-- OS, line samples per bit cell (R10, OPEN). -/
  os : Nat
  /-- T_SEND_REQ_RISE (R12). -/
  tSendReqRise : Word32
  /-- T_SEND_REQ_FALL (R13, OPEN). -/
  tSendReqFall : Word32
  /-- T_RECV_REQ_RISE (R14, OPEN). -/
  tRecvReqRise : Word32
  /-- T_RECV_REQ_FALL (R14, OPEN). -/
  tRecvReqFall : Word32
  /-- SEND_RETRY_MAX: bounds the device layer, never read by the block (R15, R173). -/
  sendRetryMax : Nat
  /-- MAX_DEVICES, the slots of the device table (R16, OPEN). -/
  maxDevices : Nat
  /-- RESET_SET (R17). -/
  resetSet : List Phase
  /-- ENABLE_SET (R17). -/
  enableSet : List Phase
  /-- REQ_IS_PH0: REQ is phase line PH0 (R18). -/
  reqIsPh0 : Bool
  /-- STRICT_FRAMING (R19). -/
  strictFraming : Bool
  /-- QUIRK_ENABLE (R20). -/
  quirkEnable : Bool
  /-- QUIRK_LEN_MIN (R20, OPEN). -/
  quirkLenMin : Nat
  /-- QUIRK_LEN_MAX (R20, OPEN). -/
  quirkLenMax : Nat
  /-- OPCODE_CAP: the opcodes with a class; every other opcode is NONE (R21). -/
  opcodeCap : List (Byte × Cap)
  /-- BADCMD_CODE: the device layer's reply code, never read by the block (R22, R220). -/
  badcmdCode : Byte
  /-- IOERR_CODE: a device-layer status value, never read by the block (R22). -/
  ioerrCode : Byte
  /-- HOST_DEST, the DEST byte of every packet the block encodes (R23). -/
  hostDest : Byte
  /-- TX_AUX, the AUX byte of every packet the block encodes (R23). -/
  txAux : Byte
  /-- CSR_BASE, the platform address of CSR offset 0 (20_memory.md R69, OPEN). -/
  csrBase : Nat
deriving DecidableEq, Repr

/-- The parameters of State.reset: the spec's defaults (R7, R12, R15, R17 to R23) and, for the OPEN ones, the values
its test vectors take (spec/95_test_vectors.md). The OPEN ones are a DESIGN CHOICE (notes/assumptions/3.md); the
defaults the spec itself marks as general knowledge are listed in notes/assumptions/18.md. -/
def Params.default : Params where
  bufLen := 605
  cmdPacketLen := 28
  os := 4
  tSendReqRise := 300000#32
  tSendReqFall := 100000#32
  tRecvReqRise := 100000#32
  tRecvReqFall := 100000#32
  sendRetryMax := 5
  maxDevices := 4
  resetSet := [0b0101#4]
  enableSet := [0b1010#4, 0b1011#4, 0b1110#4, 0b1111#4]
  reqIsPh0 := true
  strictFraming := true
  quirkEnable := false
  quirkLenMin := 0
  quirkLenMax := 0
  opcodeCap := [(0x80#8, .status), (0x81#8, .read), (0x82#8, .write), (0x84#8, .control),
    (0x86#8, .openCap), (0x87#8, .closeCap), (0x88#8, .read), (0x89#8, .write)]
  badcmdCode := 0x01#8
  ioerrCode := 0x27#8
  hostDest := 0x80#8
  txAux := 0x80#8
  csrBase := 0

/-- FREE VALUE. A line sample the environment supplies where HOST has queued none: "The samples are a draw: a free
input, under no law the block imposes" (41_transport.md R159; notes/assumptions/6.md). -/
opaque Config.freeSample : Nat → Bool

/-- FREE VALUE. Whether POLL takes APP's request first when APP and DEVLAYER both offer one: the spec gives no order
(42_bus_fsm.md R192; notes/assumptions/7.md). -/
opaque Config.portPick : Nat → Bool

end Sys2Proof
end

