-- ==== Sys2Proof/Syntax.lean ====
section
/-! DEFINITION. The operations of the block: one constructor of `Instr` for each row of spec/opcode_table.json
(00_scope.md R3), and the code spaces their encodings live in (30_encoding.md). -/

namespace Sys2Proof

/-- The issuers of port requests (30_encoding.md R93). -/
inductive Issuer where
  | app | devlayer
deriving DecidableEq, Repr

/-- The element of the wire frame a byte stands in. A byte of the frame is recognised by its position
(R80, R90, R97), so the position is part of its code space. -/
inductive FramePos where
  | sync | start | header | counts | oddHeader | groupHeader | stuffed | chk1 | chk2 | endMark
deriving DecidableEq, Repr

/-- The code spaces: the "format" column of the opcode table. A port request carries its issuer, because the
issuer is the port it comes from and no field of the record (R93, R94). -/
inductive Format where
  | port (who : Issuer)
  | pollStep | engStep | trStep | isrStep | timerStep
  | phase | pktType | cmdOpcode
  | frame (pos : FramePos)
deriving DecidableEq, Repr

/-- A request on the operation port (R93). `n` is the field N; `data` is the N payload bytes. -/
structure Request where
  op : Byte
  a : Byte
  b : Byte
  c : Byte
  n : BitVec 16
  data : List Byte
deriving DecidableEq, Repr

/-- Why the decoder rejects a code. -/
inductive DecodeError where
  /-- No code of its space. -/
  | unknownCode
  /-- Fewer bytes than the code needs. -/
  | truncated
  /-- More bytes than the code has. -/
  | trailing
  /-- A frame byte whose fixed bits are wrong (R83 to R89). -/
  | fixedBits
  /-- An ODDCNT whose low 7 bits exceed 6 (R84, R96). -/
  | oddCount
deriving DecidableEq, Repr

/-- The operations. One constructor per row of spec/opcode_table.json, in the table's order. -/
inductive Instr where
  -- PORT (R93)
  | addDevice (who : Issuer) (slot dtype : Byte)
  | removeDevice (who : Issuer) (slot : Byte)
  | setActive (who : Issuer) (addr v : Byte)
  | setActiveSlot (who : Issuer) (slot v : Byte)
  | deviceByAddr (who : Issuer) (addr : Byte)
  | encodePacket (who : Issuer) (sourceId packetType status : Byte) (n : BitVec 16) (data : List Byte)
  | decodePacket (who : Issuer) (n : BitVec 16) (data : List Byte)
  | sendReply (who : Issuer) (packetType status : Byte) (n : BitVec 16) (data : List Byte)
  | recvData (who : Issuer) (n : BitVec 16)
  | devDone (who : Issuer)
  | portReserved (who : Issuer) (op : Byte)
  -- POLL_STEP
  | pollDispatch
  -- ENG_STEP
  | eIdle
  | eReset
  | busReset
  | eEnable
  | claim
  | eClaimWait
  | eDecode
  | initAssign
  | dispatchCmd
  | dispatchIoerror
  | eInitReply
  | eDevice
  | eFinish
  -- TR_STEP
  | sWaitRise
  | sWaitFall
  | rWaitRise
  | rWaitFall
  -- ISR_STEP
  | isrStart
  | iWaitRise
  | isrStage
  -- TIMER_STEP
  | edgeDetect
  | timerTick
  -- PHASE: HOST drives a phase vector of the class
  | phaseReset (p : Phase)
  | phaseEnable (p : Phase)
  | phaseIdle (p : Phase)
  -- PKT_TYPE: the TYPE byte
  | typeCommand
  | typeStatus
  | typeData
  | typeReserved (t : Byte)
  -- CMD_OPCODE: data byte 0 and the parameter bytes (R92)
  | initCmd
  | cmdStatus80 (params : List Byte)
  | cmdRead81 (params : List Byte)
  | cmdWrite82 (params : List Byte)
  | cmdControl84 (params : List Byte)
  | cmdOpen86 (params : List Byte)
  | cmdClose87 (params : List Byte)
  | cmdRead88 (params : List Byte)
  | cmdWrite89 (params : List Byte)
  | cmdNone (data : List Byte)
  -- FRAME
  | sync
  | start
  | endMark
  | header (dest src ptype aux stat oddcnt grp7cnt : Byte)
  | counts (numOdd numGroups : BitVec 7)
  | oddHeader (msbs : BitVec 6)
  | groupHeader (msbs : BitVec 7)
  | stuffedByte (low : BitVec 7)
  | chk1 (bits : BitVec 4)
  | chk2 (bits : BitVec 4)
deriving DecidableEq, Repr

end Sys2Proof
end

