-- ==== Sys2Proof/WellFormed.lean ====
section
/-! DEFINITION. Which operation terms are the reading of some code: the constraints the encodings of
spec/30_encoding.md put on operands. A port request's range checks (R94) are no part of this: the block answers
those with ERR_BADOP at run time. -/

namespace Sys2Proof

/-- Bit 7 of a byte, the framing marker (R83, R89). -/
def highBit (b : Byte) : Bool := b.getLsbD 7

/-- The op codes of the R93 table. -/
def portOps : List Byte :=
  [0x01#8, 0x02#8, 0x03#8, 0x04#8, 0x05#8, 0x10#8, 0x11#8, 0x20#8, 0x21#8, 0x2F#8]

/-- The command opcodes that have a row of their own: INIT (R95) and the opcodes of the default OPCODE_CAP (R21). -/
def namedOpcodes : List Byte :=
  [0x85#8, 0x80#8, 0x81#8, 0x82#8, 0x84#8, 0x86#8, 0x87#8, 0x88#8, 0x89#8]

/-- The TYPE values with a row of their own (R85). -/
def namedTypes : List Byte := [0x80#8, 0x81#8, 0x82#8]

/-- The term is the reading of a code, under the parameters `P`. -/
def Instr.wellFormed (P : Params) : Instr → Bool
  | .addDevice _ _ _ => true
  | .removeDevice _ _ => true
  | .setActive _ _ _ => true
  | .setActiveSlot _ _ _ => true
  | .deviceByAddr _ _ => true
  | .encodePacket _ _ _ _ n data => data.length == n.toNat
  | .decodePacket _ n data => data.length == n.toNat
  | .sendReply _ _ _ n data => data.length == n.toNat
  | .recvData _ _ => true
  | .devDone _ => true
  | .portReserved _ op => !portOps.contains op
  | .pollDispatch => true
  | .eIdle => true
  | .eReset => true
  | .busReset => true
  | .eEnable => true
  | .claim => true
  | .eClaimWait => true
  | .eDecode => true
  | .initAssign => true
  | .dispatchCmd => true
  | .dispatchIoerror => true
  | .eInitReply => true
  | .eDevice => true
  | .eFinish => true
  | .sWaitRise => true
  | .sWaitFall => true
  | .rWaitRise => true
  | .rWaitFall => true
  | .isrStart => true
  | .iWaitRise => true
  | .isrStage => true
  | .edgeDetect => true
  | .timerTick => true
  | .phaseReset p => P.resetSet.contains p
  | .phaseEnable p => !P.resetSet.contains p && P.enableSet.contains p
  | .phaseIdle p => !P.resetSet.contains p && !P.enableSet.contains p
  | .typeCommand => true
  | .typeStatus => true
  | .typeData => true
  | .typeReserved t => highBit t && !namedTypes.contains t
  | .initCmd => true
  | .cmdStatus80 _ => true
  | .cmdRead81 _ => true
  | .cmdWrite82 _ => true
  | .cmdControl84 _ => true
  | .cmdOpen86 _ => true
  | .cmdClose87 _ => true
  | .cmdRead88 _ => true
  | .cmdWrite89 _ => true
  | .cmdNone data => !(data.head?.any namedOpcodes.contains)
  | .sync => true
  | .start => true
  | .endMark => true
  | .header d s t a st o g => [d, s, t, a, st, o, g].all highBit
  | .counts o _ => decide (o.toNat ≤ 6)
  | .oddHeader _ => true
  | .groupHeader _ => true
  | .stuffedByte _ => true
  | .chk1 _ => true
  | .chk2 _ => true

end Sys2Proof
end

