-- ==== Sys2Proof/Decode.lean ====
section
/-! DEFINITION. The decoders of the block's code spaces (spec/30_encoding.md), total on any bytes and rejecting by
name, and after them the encoder. -/

namespace Sys2Proof

/-! ### The phase decoder -/

/-- The class of a phase vector, and the BusPhase names of 10_state.md R32. -/
inductive BusPhase where
  | idle | reset | enable
deriving DecidableEq, Repr

/-- `classify(p)` (42_bus_fsm.md R190): set membership, Idle for every other vector (R191). -/
def classify (P : Params) (p : Phase) : BusPhase :=
  if P.resetSet.contains p then .reset
  else if P.enableSet.contains p then .enable
  else .idle

/-- The row of a phase vector (30_encoding.md R91). -/
def decodePhase (P : Params) (p : Phase) : Instr :=
  match classify P p with
  | .reset => .phaseReset p
  | .enable => .phaseEnable p
  | .idle => .phaseIdle p

/-! ### The operation port -/

/-- The rows of the operation port (30_encoding.md R93). -/
inductive PortKind where
  | addDevice | removeDevice | setActive | setActiveSlot | deviceByAddr
  | encodePacket | decodePacket | sendReply | recvData | devDone | reserved
deriving DecidableEq, Repr

/-- The op code table of R93; every other code is PORT_RESERVED (R94). -/
def portKind (op : Byte) : PortKind :=
  if op = 0x01#8 then .addDevice
  else if op = 0x02#8 then .removeDevice
  else if op = 0x03#8 then .setActive
  else if op = 0x04#8 then .setActiveSlot
  else if op = 0x05#8 then .deviceByAddr
  else if op = 0x10#8 then .encodePacket
  else if op = 0x11#8 then .decodePacket
  else if op = 0x20#8 then .sendReply
  else if op = 0x21#8 then .recvData
  else if op = 0x2F#8 then .devDone
  else .reserved

/-- The operation a request from `who` asks for (R93). Fields the table does not list are not looked at. -/
def decodeRequest (who : Issuer) (r : Request) : Instr :=
  match portKind r.op with
  | .addDevice => .addDevice who r.a r.b
  | .removeDevice => .removeDevice who r.a
  | .setActive => .setActive who r.a r.b
  | .setActiveSlot => .setActiveSlot who r.a r.b
  | .deviceByAddr => .deviceByAddr who r.a
  | .encodePacket => .encodePacket who r.a r.b r.c r.n r.data
  | .decodePacket => .decodePacket who r.n r.data
  | .sendReply => .sendReply who r.a r.b r.n r.data
  | .recvData => .recvData who r.n
  | .devDone => .devDone who
  | .reserved => .portReserved who r.op

/-- A request as bytes: op, A, B, C, N low byte, N high byte, data. The spec gives the record's fields and widths but
no byte layout; this one is a DESIGN CHOICE (notes/assumptions/14.md). -/
def Request.toBytes (r : Request) : List Byte :=
  r.op :: r.a :: r.b :: r.c :: r.n.extractLsb' 0 8 :: r.n.extractLsb' 8 8 :: r.data

/-- The request laid out in the bytes, or none when the six fixed fields are not all there. -/
def Request.ofBytes : List Byte → Option Request
  | op :: a :: b :: c :: lo :: hi :: data =>
    some { op := op, a := a, b := b, c := c, n := (hi ++ lo : BitVec 16), data := data }
  | _ => none

/-! ### The agent steps -/

/-- ENG_STEP: bits 2..0 are the ENG code (10_state.md R31). The conditioned rows share an ENG code with a base row;
bits 7..3, which the table's mask 0x7 leaves open, say which of them is meant (a DESIGN CHOICE,
notes/assumptions/15.md). -/
def decodeEng (b : Byte) : Except DecodeError Instr :=
  if b = 0x00#8 then .ok .eIdle
  else if b = 0x01#8 then .ok .eReset
  else if b = 0x02#8 then .ok .eEnable
  else if b = 0x03#8 then .ok .eClaimWait
  else if b = 0x04#8 then .ok .eDecode
  else if b = 0x05#8 then .ok .eInitReply
  else if b = 0x06#8 then .ok .eDevice
  else if b = 0x07#8 then .ok .eFinish
  else if b = 0x08#8 then .ok .busReset
  else if b = 0x0A#8 then .ok .busReset
  else if b = 0x12#8 then .ok .claim
  else if b = 0x1C#8 then .ok .initAssign
  else if b = 0x24#8 then .ok .dispatchCmd
  else if b = 0x2C#8 then .ok .dispatchIoerror
  else .error .unknownCode

/-- TR_STEP: the TR_STATE code (10_state.md R37). -/
def decodeTr (b : Byte) : Except DecodeError Instr :=
  if b = 0x01#8 then .ok .sWaitRise
  else if b = 0x02#8 then .ok .sWaitFall
  else if b = 0x03#8 then .ok .rWaitRise
  else if b = 0x04#8 then .ok .rWaitFall
  else .error .unknownCode

/-- ISR_STEP: bit 0 is ISR_STATE (10_state.md R40); bit 1, outside the mask, marks ISR_STAGE
(notes/assumptions/15.md). -/
def decodeIsr (b : Byte) : Except DecodeError Instr :=
  if b = 0x00#8 then .ok .isrStart
  else if b = 0x01#8 then .ok .iWaitRise
  else if b = 0x03#8 then .ok .isrStage
  else .error .unknownCode

/-- TIMER_STEP: the table gives no code; 0 and 1 are a DESIGN CHOICE (notes/assumptions/15.md). -/
def decodeTimer (b : Byte) : Except DecodeError Instr :=
  if b = 0x00#8 then .ok .timerTick
  else if b = 0x01#8 then .ok .edgeDetect
  else .error .unknownCode

/-! ### Packet TYPE and command opcode -/

/-- The TYPE byte (30_encoding.md R85): a reserved value with bit 7 set is passed through, one without bit 7 is no
TYPE of a well-formed packet (R83). -/
def decodeType (t : Byte) : Except DecodeError Instr :=
  if t = 0x80#8 then .ok .typeCommand
  else if t = 0x81#8 then .ok .typeStatus
  else if t = 0x82#8 then .ok .typeData
  else if highBit t then .ok (.typeReserved t)
  else .error .fixedBits

/-- The row of a decoded command payload: data byte 0 is the opcode, the rest are parameters (R92, R95, R21, R220). -/
def decodeCommand : List Byte → Instr
  | [] => .cmdNone []
  | op :: ps =>
    if op = 0x85#8 then .initCmd
    else if op = 0x80#8 then .cmdStatus80 ps
    else if op = 0x81#8 then .cmdRead81 ps
    else if op = 0x82#8 then .cmdWrite82 ps
    else if op = 0x84#8 then .cmdControl84 ps
    else if op = 0x86#8 then .cmdOpen86 ps
    else if op = 0x87#8 then .cmdClose87 ps
    else if op = 0x88#8 then .cmdRead88 ps
    else if op = 0x89#8 then .cmdWrite89 ps
    else .cmdNone (op :: ps)

/-! ### Frame bytes -/

/-- SYNC (30_encoding.md R81). -/
def syncBytes : List Byte := [0xFF#8, 0x3F#8, 0xCF#8, 0xF3#8, 0xFC#8, 0xFF#8]

/-- The start byte (R82). -/
def startByte : Byte := 0xC3#8

/-- The end byte (R82). -/
def endByte : Byte := 0xC8#8

/-- ODDCNT or GRP7CNT: `0x80 | count` (R84). -/
def countByte (c : BitVec 7) : Byte := 0x80#8 ||| c.setWidth 8

/-- Odd header `1abcdef0`, bit 6-k the MSB of odd byte k (R87, 90_conflicts.md C1). -/
def oddHeaderByte (m : BitVec 6) : Byte := 0x80#8 ||| (m.setWidth 8 <<< 1)

/-- Group header `1abcdefg`, bit 6-b the MSB of group byte b (R88, 90_conflicts.md C2). -/
def groupHeaderByte (m : BitVec 7) : Byte := 0x80#8 ||| m.setWidth 8

/-- Stuffed byte `1ddddddd` (R89). -/
def stuffedDataByte (d : BitVec 7) : Byte := 0x80#8 ||| d.setWidth 8

/-- A trailer byte `1a1b1c1d` (R89): the four checksum bits stand at 6, 4, 2, 0. -/
def checkByte (c : BitVec 4) : Byte :=
  0xAA#8 ||| ((c.setWidth 8 &&& 0x8#8) <<< 3) ||| ((c.setWidth 8 &&& 0x4#8) <<< 2)
    ||| ((c.setWidth 8 &&& 0x2#8) <<< 1) ||| (c.setWidth 8 &&& 0x1#8)

/-- The four checksum bits of a trailer byte. -/
def checkBits (b : Byte) : BitVec 4 :=
  (((b &&& 0x40#8) >>> 3) ||| ((b &&& 0x10#8) >>> 2) ||| ((b &&& 0x04#8) >>> 1) ||| (b &&& 0x01#8)).setWidth 4

/-- The frame element at a position of the packet (30_encoding.md R80 to R90). -/
def decodeFrame : FramePos → List Byte → Except DecodeError Instr
  | .sync, bs => if bs = syncBytes then .ok .sync else .error .fixedBits
  | .start, bs => if bs = [startByte] then .ok .start else .error .fixedBits
  | .endMark, bs => if bs = [endByte] then .ok .endMark else .error .fixedBits
  | .header, [d, s, t, a, st, o, g] =>
    if [d, s, t, a, st, o, g].all highBit then .ok (.header d s t a st o g) else .error .fixedBits
  | .counts, [o, g] =>
    if !(highBit o && highBit g) then .error .fixedBits
    else if (o.setWidth 7).toNat ≤ 6 then .ok (.counts (o.setWidth 7) (g.setWidth 7))
    else .error .oddCount
  | .oddHeader, [b] =>
    if highBit b && !b.getLsbD 0 then .ok (.oddHeader (b.extractLsb' 1 6)) else .error .fixedBits
  | .groupHeader, [b] => if highBit b then .ok (.groupHeader (b.setWidth 7)) else .error .fixedBits
  | .stuffed, [b] => if highBit b then .ok (.stuffedByte (b.setWidth 7)) else .error .fixedBits
  | .chk1, [b] => if b &&& 0xAA#8 = 0xAA#8 then .ok (.chk1 (checkBits b)) else .error .fixedBits
  | .chk2, [b] => if b &&& 0xAA#8 = 0xAA#8 then .ok (.chk2 (checkBits b)) else .error .fixedBits
  | _, [] => .error .truncated
  | _, _ :: _ => .error .trailing

/-! ### The decoder -/

/-- A code of exactly one byte. -/
def oneByte (k : Byte → Except DecodeError Instr) : List Byte → Except DecodeError Instr
  | [] => .error .truncated
  | [b] => k b
  | _ :: _ :: _ => .error .trailing

/-- The operation a code stands for in its code space. -/
def decode (P : Params) (f : Format) (bs : List Byte) : Except DecodeError Instr :=
  match f with
  | .port who =>
    match Request.ofBytes bs with
    | some r => .ok (decodeRequest who r)
    | none => .error .truncated
  | .pollStep => if bs = [] then .ok .pollDispatch else .error .trailing
  | .engStep => oneByte decodeEng bs
  | .trStep => oneByte decodeTr bs
  | .isrStep => oneByte decodeIsr bs
  | .timerStep => oneByte decodeTimer bs
  | .phase =>
    oneByte (fun b => if b &&& 0xF0#8 = 0x00#8 then .ok (decodePhase P (b.setWidth 4)) else .error .unknownCode) bs
  | .pktType => oneByte decodeType bs
  | .cmdOpcode => .ok (decodeCommand bs)
  | .frame pos => decodeFrame pos bs

/-! ### The encoder -/

/-- A request with the given op code and fields. -/
def portCode (who : Issuer) (op a b c : Byte) (n : BitVec 16) (data : List Byte) : Format × List Byte :=
  (.port who, Request.toBytes { op := op, a := a, b := b, c := c, n := n, data := data })

/-- The code of an operation: its code space and its bytes, from the encoding tables of 30_encoding.md. Fields of a
request that the table marks "-" are written 0. -/
def encode : Instr → Format × List Byte
  | .addDevice who slot dtype => portCode who 0x01#8 slot dtype 0 0 []
  | .removeDevice who slot => portCode who 0x02#8 slot 0 0 0 []
  | .setActive who addr v => portCode who 0x03#8 addr v 0 0 []
  | .setActiveSlot who slot v => portCode who 0x04#8 slot v 0 0 []
  | .deviceByAddr who addr => portCode who 0x05#8 addr 0 0 0 []
  | .encodePacket who src ty st n data => portCode who 0x10#8 src ty st n data
  | .decodePacket who n data => portCode who 0x11#8 0 0 0 n data
  | .sendReply who ty st n data => portCode who 0x20#8 ty st 0 n data
  | .recvData who n => portCode who 0x21#8 0 0 0 n []
  | .devDone who => portCode who 0x2F#8 0 0 0 0 []
  | .portReserved who op => portCode who op 0 0 0 0 []
  | .pollDispatch => (.pollStep, [])
  | .eIdle => (.engStep, [0x00#8])
  | .eReset => (.engStep, [0x01#8])
  | .busReset => (.engStep, [0x08#8])
  | .eEnable => (.engStep, [0x02#8])
  | .claim => (.engStep, [0x12#8])
  | .eClaimWait => (.engStep, [0x03#8])
  | .eDecode => (.engStep, [0x04#8])
  | .initAssign => (.engStep, [0x1C#8])
  | .dispatchCmd => (.engStep, [0x24#8])
  | .dispatchIoerror => (.engStep, [0x2C#8])
  | .eInitReply => (.engStep, [0x05#8])
  | .eDevice => (.engStep, [0x06#8])
  | .eFinish => (.engStep, [0x07#8])
  | .sWaitRise => (.trStep, [0x01#8])
  | .sWaitFall => (.trStep, [0x02#8])
  | .rWaitRise => (.trStep, [0x03#8])
  | .rWaitFall => (.trStep, [0x04#8])
  | .isrStart => (.isrStep, [0x00#8])
  | .iWaitRise => (.isrStep, [0x01#8])
  | .isrStage => (.isrStep, [0x03#8])
  | .edgeDetect => (.timerStep, [0x01#8])
  | .timerTick => (.timerStep, [0x00#8])
  | .phaseReset p => (.phase, [p.setWidth 8])
  | .phaseEnable p => (.phase, [p.setWidth 8])
  | .phaseIdle p => (.phase, [p.setWidth 8])
  | .typeCommand => (.pktType, [0x80#8])
  | .typeStatus => (.pktType, [0x81#8])
  | .typeData => (.pktType, [0x82#8])
  | .typeReserved t => (.pktType, [t])
  | .initCmd => (.cmdOpcode, [0x85#8])
  | .cmdStatus80 ps => (.cmdOpcode, 0x80#8 :: ps)
  | .cmdRead81 ps => (.cmdOpcode, 0x81#8 :: ps)
  | .cmdWrite82 ps => (.cmdOpcode, 0x82#8 :: ps)
  | .cmdControl84 ps => (.cmdOpcode, 0x84#8 :: ps)
  | .cmdOpen86 ps => (.cmdOpcode, 0x86#8 :: ps)
  | .cmdClose87 ps => (.cmdOpcode, 0x87#8 :: ps)
  | .cmdRead88 ps => (.cmdOpcode, 0x88#8 :: ps)
  | .cmdWrite89 ps => (.cmdOpcode, 0x89#8 :: ps)
  | .cmdNone data => (.cmdOpcode, data)
  | .sync => (.frame .sync, syncBytes)
  | .start => (.frame .start, [startByte])
  | .endMark => (.frame .endMark, [endByte])
  | .header d s t a st o g => (.frame .header, [d, s, t, a, st, o, g])
  | .counts o g => (.frame .counts, [countByte o, countByte g])
  | .oddHeader m => (.frame .oddHeader, [oddHeaderByte m])
  | .groupHeader m => (.frame .groupHeader, [groupHeaderByte m])
  | .stuffedByte d => (.frame .stuffed, [stuffedDataByte d])
  | .chk1 c => (.frame .chk1, [checkByte c])
  | .chk2 c => (.frame .chk2, [checkByte c])

/-! ### Words of the opcode table -/

/-- Byte `k` of a word whose bit 0 is the least significant bit of its first byte. -/
def wordByte (w k : Nat) : Byte := BitVec.ofNat 8 (w / 256 ^ k)

/-- The code space a bare word of the opcode table is read in. The table's rows live in code spaces that overlap (0x01
is ADD_DEVICE on the port, E_RESET in ENG, S_WAIT_RISE in TR_STATE) and a word does not carry its space, so the
first of these that has the code is taken: a listed port op (from an issuer the table lists), the preamble, a
command opcode, the fixed frame bytes, a phase vector of ENABLE_SET, an ENG code; and PORT_RESERVED for the rest
(notes/assumptions/1.md). -/
def tableFormat (nbits w : Nat) : Format :=
  let b := wordByte w 0
  if portOps.contains b then
    .port (if b.toNat ≤ 5 || b = 0x10#8 || b = 0x11#8 then .app else .devlayer)
  else if 48 ≤ nbits && (List.range 6).map (wordByte w) = syncBytes then .frame .sync
  else if namedOpcodes.contains b then .cmdOpcode
  else if b = startByte then .frame .start
  else if b = endByte then .frame .endMark
  else if b = 0xAA#8 then .frame .chk1
  else if (Params.default.enableSet.map (BitVec.setWidth 8)).contains b then .phase
  else if b.toNat ≤ 7 then .engStep
  else .port .app

/-- The bytes of the instruction, laid out in its code space; the bits above `nbits` are 0, so a port record is
padded with zero fields. -/
def tableBytes (nbits w : Nat) : List Byte :=
  match tableFormat nbits w with
  | .port _ => (List.range 6).map (wordByte w) ++ List.replicate ((wordByte w 4).toNat + 256 * (wordByte w 5).toNat) 0
  | .frame .sync => (List.range 6).map (wordByte w)
  | _ => [wordByte w 0]

/-- The instruction the decoder reads from a word of the opcode table. -/
def decodeTableWord (nbits w : Nat) : Option Instr :=
  match decode Params.default (tableFormat nbits w) (tableBytes nbits w) with
  | .ok i => some i
  | .error _ => none

end Sys2Proof
end

