-- ==== Sys2Proof/Machine/State.lean ====
section
/-! DEFINITION. The state of the SmartPort bus engine as plain data (spec/10_state.md), the reasons a step can stop,
and the state after power-on reset (R56, 70_reset_and_hazards.md R290). -/

namespace Sys2Proof.Machine

/-! ### Byte buffers -/

/-- One byte buffer (TXBUF, RXBUF or MB; 20_memory.md R57): index and byte, indices strictly rising. An index that is
not listed holds no value (10_state.md R56). -/
abbrev Memory := List Host.Cell

/-- The canonical form: indices strictly rising. No entry can equal what an unlisted index reads as, which is no
value at all. -/
abbrev Memory.wf (m : Memory) : Prop := m.Pairwise (fun x y => x.1 < y.1)

/-! ### Registers that hold one of a few names -/

/-- ENG, the sequencing state of the service engine (10_state.md R31). -/
inductive Eng where
  | idle | reset | enable | claimWait | decode | initReply | device | finish
deriving DecidableEq, Repr

/-- TR_STATE (R37). Codes 5 to 7 never occur, so they have no name. -/
inductive TrState where
  | idle | sWaitRise | sWaitFall | rWaitRise | rWaitFall
deriving DecidableEq, Repr

/-- TR_RESULT (R37). -/
inductive TrResult where
  | ok | timeoutRise | timeoutFall | decodeFail
deriving DecidableEq, Repr

/-- ISR_STATE (R40). -/
inductive IsrState where
  | idle | waitRise
deriving DecidableEq, Repr

/-- CUR_KIND (R36). -/
inductive CurKind where
  | none | init | cmd
deriving DecidableEq, Repr

/-- DISP_KIND (R47): CMD 1 or IOERROR 2; `none` is the 0 of power-on reset (R56). -/
inductive DispKind where
  | none | cmd | ioerror
deriving DecidableEq, Repr

/-- One slot of the device table (R41). -/
structure Device where
  present : Bool
  active : Bool
  addr : Byte
  dtype : Byte
deriving DecidableEq, Repr

/-- A slot with no device (R42, R56). -/
def Device.empty : Device := { present := false, active := false, addr := 0, dtype := 0 }

/-- The decoded command record (40_codec.md R125). Its `n` is `data.length`, and its opcode and parameters are the
head and the tail of `data`. -/
structure DecRec where
  dest : Byte
  src : Byte
  ptype : Byte
  aux : Byte
  stat : Byte
  data : List Byte
deriving DecidableEq, Repr

/-- The all-zero record (notes/assumptions/4.md). -/
def DecRec.zero : DecRec := { dest := 0, src := 0, ptype := 0, aux := 0, stat := 0, data := [] }

/-- `n` (R125). -/
def DecRec.n (r : DecRec) : Nat := r.data.length

/-- `opcode`: data byte 0, or NONE (R125, 30_encoding.md R92). -/
def DecRec.opcode (r : DecRec) : Option Byte := r.data.head?

/-- `params = data[1..n)` (R125). -/
def DecRec.params (r : DecRec) : List Byte := r.data.tail

/-- A reply of the operation port (30_encoding.md R93). A field that the operation's rule does not list is not
carried: `none` (notes/assumptions/8.md). -/
structure Reply where
  rc : Byte
  r0 : Option Byte
  rn : Option (BitVec 16)
  rdata : Option (List Byte)
deriving DecidableEq, Repr

/-! ### The schedule -/

/-- The conditions a program waits for (30_encoding.md R98, R99). R98 gives `cond` no grammar: that it names ACK, ENG or
DISP_VALID and nothing else, as every program and expansion of the spec does, is a DESIGN CHOICE
(notes/assumptions/28.md). -/
inductive Cond where
  | ack (v : Bool)
  | eng (e : Eng)
  | dispValid (v : Bool)
deriving DecidableEq, Repr

/-- One line of the schedule: an operation given by its code, an environment action, or a verb of the program syntax
(00_scope.md R29, 30_encoding.md R98, notes/assumptions/2.md). -/
inductive Entry where
  /-- The agent of the code space takes the step with this code. -/
  | code (f : Format) (bytes : List Byte)
  /-- HOST drives REQ (R98: REQ_PIN, or PHASE[0] when REQ_IS_PH0). -/
  | req (v : Bool)
  /-- HOST queues bytes for the next capture (R98, R99: LINE). -/
  | line (bytes : List Byte)
  /-- HOST queues raw line samples (10_state.md R52). -/
  | samples (s : List Bool)
  /-- HOST reads, and so removes, the first `k` emitted bits (R51). -/
  | readTx (k : Nat)
  /-- An issuer offers a request (42_bus_fsm.md R192). -/
  | offer (who : Issuer) (r : Request)
  /-- An issuer reads the CSR at a platform address, `width` bits wide (10_state.md R54, R55). -/
  | csrRead (who : Issuer) (addr width : Nat)
  /-- An issuer writes a CSR. -/
  | csrWrite (who : Issuer) (addr width : Nat) (v : Word32)
  /-- Power-on reset (70_reset_and_hazards.md R290). -/
  | powerOn
  /-- RUN k (R98): `k` rounds of the reference schedule. -/
  | run (k : Nat)
  /-- RUN UNTIL cond (R98), with the rounds left before the host times out. The condition is tested once more at step 1
  of the round after the last one the bound allows: a DESIGN CHOICE (notes/assumptions/29.md). -/
  | runUntil (c : Cond) (bound : Nat)
  /-- AWAIT (R98): rounds until the issuer's request has been answered. -/
  | await (who : Issuer)
  /-- EXPECT_TX (R98). -/
  | expectTx (bytes : List Byte)
deriving DecidableEq, Repr

/-- Whose step is next in a round of the reference schedule (70_reset_and_hazards.md R302). -/
inductive Turn where
  | timer | core
deriving DecidableEq, Repr

/-! ### The state -/

/-- The state: every register, buffer, table, pin and port of 10_state.md, the parameters, and the model's own
fields. INVENTORY.md lists each with its rule and its reset value. -/
structure State where
  /-- The parameters, written by no operation (20_memory.md R75). -/
  params : Params
  -- the service engine and its flags
  eng : Eng
  ack : Bool
  staged : Bool
  -- the mailbox
  mb : Memory
  mbLen : Nat
  mbLock : Bool
  -- the current command
  curKind : CurKind
  curSlot : Nat
  curDec : DecRec
  curStatus : Byte
  wT0 : Word32
  wLimit : Word32
  -- the transport
  trState : TrState
  trT0 : Word32
  trLimit : Word32
  trResult : TrResult
  txBuf : Memory
  txLen : Nat
  rxBuf : Memory
  rxLen : Nat
  rxLock : Bool
  rxExpect : Nat
  -- the prefetch interrupt
  isrState : IsrState
  isrT0 : Word32
  irqPend : Bool
  prevPhase : Phase
  -- the device table and the daisy chain
  dev : List Device
  chain : List Nat
  -- codec, errors, timer
  lastChk : Byte
  lastChkV : Bool
  lastErr : Byte
  errFlags : BitVec 16
  timer : Word32
  -- the device-layer interface
  dispValid : Bool
  dispSlot : Nat
  dispKind : DispKind
  dispCap : Cap
  dispCmd : DecRec
  -- pins and line
  phase : Phase
  reqPin : Bool
  txBits : List Bool
  /-- The bytes HOST LINE has queued for the next capture: `some []` is an empty LINE, `none` no LINE (30_encoding.md R99). -/
  hostLine : Option (List Byte)
  samples : List Bool
  -- the operation port
  reqApp : Option Request
  reqDev : Option Request
  busy : Bool
  replyApp : Option Reply
  replyDev : Option Reply
  -- model outcomes and the schedule
  csrOut : Word32
  refusedOp : Bool
  script : List Entry
  turn : Turn
  draws : Nat
  hostTimeouts : Nat
  txChecked : Nat
  expectFailed : Bool
deriving DecidableEq, Repr

/-- Why the machine stops with a fault (60_exceptions.md R275). Each says that the run has left the admitted
interface; none is a behaviour of the block. -/
inductive Fault where
  /-- Raised by MemRead on a buffer byte that holds no value (10_state.md R56, 20_memory.md R63). Safe: the model
  stops where the spec gives no value. -/
  | unwritten
  /-- Raised by MemRead and MemWrite at an index at or above BUF_LEN (20_memory.md R62). Safe. -/
  | bufRange
  /-- Raised by a CSR access that is not an aligned 32-bit word of the CSR window (20_memory.md R66, R57). Safe. -/
  | csrAccess
deriving DecidableEq, Repr

/-- Why an entry of the schedule is no operation. -/
inductive Refusal where
  /-- Raised by `exec` for a row of the opcode table that has no meaning yet; no row is left so. Safe. -/
  | notModelled (mnemonic : String)
  /-- Raised by `step` for a schedule entry whose bytes are no code of its code space. Safe: no operation has that
  code. -/
  | undecodable (e : DecodeError)
deriving DecidableEq, Repr

/-- The state right after power-on reset (10_state.md R56) of a block with parameters `P` whose pins are at `phase`
and `reqPin`. PREV_PHASE is the sampled PHASE input; buffers list nothing; every slot is empty. CUR_DEC, which R56
gives no value, and DISP_CMD hold the all-zero record (notes/assumptions/4.md). -/
def State.powerOn (P : Params) (phase : Phase) (reqPin : Bool) : State where
  params := P
  eng := .idle
  ack := false
  staged := false
  mb := []
  mbLen := 0
  mbLock := false
  curKind := .none
  curSlot := 0
  curDec := DecRec.zero
  curStatus := 0
  wT0 := 0
  wLimit := 0
  trState := .idle
  trT0 := 0
  trLimit := 0
  trResult := .ok
  txBuf := []
  txLen := 0
  rxBuf := []
  rxLen := 0
  rxLock := false
  rxExpect := 0
  isrState := .idle
  isrT0 := 0
  irqPend := false
  prevPhase := phase
  dev := List.replicate P.maxDevices Device.empty
  chain := []
  lastChk := 0
  lastChkV := false
  lastErr := 0
  errFlags := 0
  timer := 0
  dispValid := false
  dispSlot := 0
  dispKind := .none
  dispCap := .noCap
  dispCmd := DecRec.zero
  phase := phase
  reqPin := reqPin
  txBits := []
  hostLine := none
  samples := []
  reqApp := none
  reqDev := none
  busy := false
  replyApp := none
  replyDev := none
  csrOut := 0
  refusedOp := false
  script := []
  turn := .timer
  draws := 0
  hostTimeouts := 0
  txChecked := 0
  expectFailed := false

/-- The machine right after reset: default parameters, phase lines 0000 (notes/assumptions/3.md, 4.md). -/
def State.reset : State := State.powerOn Params.default 0b0000#4 false

end Sys2Proof.Machine
end

