-- ==== Sys2Proof/Machine/Codec.lean ====
section
/-! DEFINITION. PacketCodec (spec/40_codec.md): encode, decode, the peeks and the same-checksum shim, as functions of
bytes, the parameters and LAST_CHK/LAST_CHK_V. -/

namespace Sys2Proof.Machine

/-! ### Error codes -/

/-- The errors `raise` records (60_exceptions.md R260). ERR_BADOP (10) is a reply code only and no member. -/
inductive Err where
  | timeoutReqRise | timeoutReqFall | checksum | framing | trunc | oddcnt | length | nosync | param
  | slotBusy | slotEmpty | noDevice
deriving DecidableEq, Repr

/-- The code numbers of R260. -/
def Err.num : Err → Nat
  | .timeoutReqRise => 1
  | .timeoutReqFall => 2
  | .checksum => 3
  | .framing => 4
  | .trunc => 5
  | .oddcnt => 6
  | .length => 7
  | .nosync => 8
  | .param => 9
  | .slotBusy => 11
  | .slotEmpty => 12
  | .noDevice => 13

/-- The code as a byte: LAST_ERR and RC hold it. -/
def Err.code (e : Err) : Byte := BitVec.ofNat 8 e.num

/-- ERR_BADOP, the reply code of a refused request (R260). -/
def badopCode : Byte := 10#8

/-! ### Lengths -/

/-- `n mod 7` (40_codec.md R110). -/
def numOdd (n : Nat) : Nat := n % 7

/-- `n div 7` (R110). -/
def numGroups (n : Nat) : Nat := n / 7

/-- `L(n)`, the length of an encoded packet (R116). -/
def packetLen (n : Nat) : Nat :=
  6 + 1 + 7 + numOdd n + (if numOdd n = 0 then 0 else 1) + 8 * numGroups n + 2 + 1

/-- The largest `n ≤ bound` whose packet fits in `bufLen` bytes; 0 when none does. -/
def largestFitting (bufLen : Nat) : Nat → Nat
  | 0 => 0
  | n + 1 => if packetLen (n + 1) ≤ bufLen then n + 1 else largestFitting bufLen n

/-- MAX_PAYLOAD (00_scope.md R8): the largest `n ≤ 895` with `L(n) ≤ BUF_LEN`. For a BUF_LEN below `L(0) = 17` the spec
names no value (notes/assumptions/19.md). -/
def maxPayload (P : Params) : Nat := largestFitting P.bufLen 895

/-- `p0` of 30_encoding.md R90: where the first group of a body starts. -/
def groupBase (odd : Nat) : Nat := if odd = 0 then 7 else 8 + odd

/-- The body length of R90. -/
def bodyLen (odd groups : Nat) : Nat := groupBase odd + 8 * groups + 3

/-! ### Encode -/

/-- The MSBs of a section's data bytes as header bits: byte `k` at bit `6-k` (R112, R113). -/
def msbBits : Nat → List Byte → Byte
  | _, [] => 0
  | k, d :: ds => ((d &&& 0x80#8) >>> (k + 1)) ||| msbBits (k + 1) ds

/-- A section: its header byte and its stuffed bytes (R112, R113). -/
def section7 (ds : List Byte) : List Byte :=
  (0x80#8 ||| msbBits 0 ds) :: ds.map (· ||| 0x80#8)

/-- The odd section, empty when there is no odd byte (R112). -/
def oddSection (ds : List Byte) : List Byte := if ds = [] then [] else section7 ds

/-- `g` group sections (R113). -/
def groupSections : Nat → List Byte → List Byte
  | 0, _ => []
  | g + 1, ds => section7 (ds.take 7) ++ groupSections g (ds.drop 7)

/-- The stuffed payload (30_encoding.md R86). -/
def stuff (data : List Byte) : List Byte :=
  let odd := numOdd data.length
  oddSection (data.take odd) ++ groupSections (numGroups data.length) (data.drop odd)

/-- The header of a packet the block encodes (R111). -/
def headerBytes (P : Params) (src ptype status : Byte) (n : Nat) : List Byte :=
  [P.hostDest ||| 0x80#8, src ||| 0x80#8, ptype ||| 0x80#8, P.txAux ||| 0x80#8, status ||| 0x80#8,
    0x80#8 ||| BitVec.ofNat 8 (numOdd n), 0x80#8 ||| BitVec.ofNat 8 (numGroups n)]

/-- The trailer: the split checksum and the end byte (R115). -/
def trailer (c : Byte) : List Byte := [c ||| 0xAA#8, (c >>> 1) ||| 0xAA#8, endByte]

/-- A body with the given header and data (30_encoding.md R80, 40_codec.md R114). -/
def bodyOf (hdr data : List Byte) : List Byte :=
  hdr ++ stuff data ++ trailer (xorBytes data ^^^ xorBytes hdr)

/-- The raw packet of R118, for a payload within the bound. -/
def encodeRaw (P : Params) (src ptype status : Byte) (data : List Byte) : List Byte :=
  syncBytes ++ startByte :: bodyOf (headerBytes P src ptype status data.length) data

/-! ### Decode -/

/-- Byte `i` of a body. -/
def byteAt (b : List Byte) (i : Nat) : Byte := b.getD i 0

/-- The 7-bit count in a count byte (R121). -/
def countOf (b : Byte) : Nat := (b &&& 0x7F#8).toNat

/-- Checksum merge (R120). -/
def mergeChk (c1 c2 : Byte) : Byte := (c1 &&& 0x55#8) ||| ((c2 &&& 0x55#8) <<< 1)

/-- Data bytes of a section whose header is `h`: byte `k` takes its MSB from bit `6-k` (R124). -/
def unstuff (h : Byte) : Nat → List Byte → List Byte
  | _, [] => []
  | k, b :: bs => ((b &&& 0x7F#8) ||| ((h <<< (k + 1)) &&& 0x80#8)) :: unstuff h (k + 1) bs

/-- Data bytes of `g` group sections (R124). -/
def unstuffGroups : Nat → List Byte → List Byte
  | 0, _ => []
  | g + 1, bs => unstuff (byteAt bs 0) 0 ((bs.drop 1).take 7) ++ unstuffGroups g (bs.drop 8)

/-- Step 3: the data of a body of valid structure (R124). -/
def reconstruct (b : List Byte) (odd groups : Nat) : List Byte :=
  unstuff (byteAt b 7) 0 ((b.drop 8).take odd) ++ unstuffGroups groups (b.drop (groupBase odd))

/-- Steps 1 and 2: the first structural error, or the two counts (R121, R122). -/
def structureOf (P : Params) (b : List Byte) : Except Err (Nat × Nat) :=
  if b.length < 7 then .error .trunc
  else if countOf (byteAt b 5) > 6 then .error .oddcnt
  else if countOf (byteAt b 5) + 7 * countOf (byteAt b 6) > maxPayload P then .error .length
  else if b.length < bodyLen (countOf (byteAt b 5)) (countOf (byteAt b 6)) then .error .trunc
  else .ok (countOf (byteAt b 5), countOf (byteAt b 6))

/-- Step 5: the strict framing checks (R127). Checks (1) to (3) are one: every byte before the trailer has bit 7. -/
def frameOk (P : Params) (b : List Byte) (odd groups : Nat) : Bool :=
  let t := groupBase odd + 8 * groups
  !P.strictFraming ||
    ((b.take t).all highBit
      && (odd == 0 || byteAt b 7 &&& (0x7F#8 >>> odd) == 0#8)
      && byteAt b t &&& 0xAA#8 == 0xAA#8
      && byteAt b (t + 1) &&& 0xAA#8 == 0xAA#8
      && byteAt b (t + 2) == endByte)

/-- What decode answers (R130). `bad e none` is a structural error (R123), `bad e (some rx)` a checksum or framing
failure with the received checksum; no data is given with either (R128). -/
inductive DecodeResult where
  | good (r : DecRec) (rx : Byte)
  | bad (e : Err) (rx : Option Byte)
deriving DecidableEq, Repr

/-- The shim's test (R131). -/
def quirkHit (P : Params) (lastChk : Byte) (lastChkV : Bool) (rx : Byte) (n : Nat) : Bool :=
  P.quirkEnable && lastChkV && rx == lastChk && decide (P.quirkLenMin ≤ n) && decide (n ≤ P.quirkLenMax)

/-- `decode(b)` (R121 to R131), reading LAST_CHK and LAST_CHK_V; writing them is `runDecode`'s (Ops.lean). -/
def decodeBody (P : Params) (lastChk : Byte) (lastChkV : Bool) (b : List Byte) : DecodeResult :=
  match structureOf P b with
  | .error e => .bad e none
  | .ok (odd, groups) =>
    let t := groupBase odd + 8 * groups
    let data := reconstruct b odd groups
    let rx := mergeChk (byteAt b t) (byteAt b (t + 1))
    let chkOk := xorBytes data ^^^ xorBytes (b.take 7) == rx
    if !(chkOk || quirkHit P lastChk lastChkV rx (odd + 7 * groups)) then .bad .checksum (some rx)
    else if !frameOk P b odd groups then .bad .framing (some rx)
    else .good { dest := byteAt b 0, src := byteAt b 1, ptype := byteAt b 2, aux := byteAt b 3, stat := byteAt b 4,
                 data := data } rx

/-- The received checksum of a structurally valid decode. -/
def DecodeResult.rx : DecodeResult → Option Byte
  | .good _ rx => some rx
  | .bad _ rx => rx

/-! ### Peeks -/

/-- `peek_dest(b)`, for a body of at least one byte (R133). -/
def peekDest (b : List Byte) : Byte := byteAt b 0

/-- `peek_opcode(b)` (R134). -/
def peekOpcode (b : List Byte) : Option Byte :=
  if b.length < 7 then none
  else if countOf (byteAt b 5) > 6 then none
  else if countOf (byteAt b 5) + 7 * countOf (byteAt b 6) = 0 then none
  else if b.length < 9 then none
  else some ((byteAt b 8 &&& 0x7F#8) ||| ((byteAt b 7 <<< 1) &&& 0x80#8))

/-- OPCODE_CAP of an opcode, NONE when there is none (R21, 42_bus_fsm.md R215). -/
def capOf (P : Params) : Option Byte → Cap
  | none => .noCap
  | some op => (P.opcodeCap.lookup op).getD .noCap

end Sys2Proof.Machine
end

