-- ==== Sys2Proof/Machine/Line.lean ====
section
/-! DEFINITION. The serial line (spec/41_transport.md sections 1 and 4): serialization, the capture length, the
oversampled deserializer, and the reference host encoder. -/

namespace Sys2Proof.Machine

/-- The bits of a byte, MSB first (R152, 20_memory.md R58). -/
def byteBits (x : Byte) : List Bool :=
  [x.getLsbD 7, x.getLsbD 6, x.getLsbD 5, x.getLsbD 4, x.getLsbD 3, x.getLsbD 2, x.getLsbD 1, x.getLsbD 0]

/-- `serialize(bytes)` (R152). -/
def serialize : List Byte → List Bool
  | [] => []
  | x :: xs => byteBits x ++ serialize xs

/-- `nsamp(L)`: the samples a capture of `len` raw bytes takes (R159). -/
def nsamp (os len : Nat) : Nat := (88 * len * os + 9) / 10

/-- Level changes between neighbouring samples, `prev` being the sample before the first (R165). -/
def levelChanges (prev : Bool) : List Bool → List Bool
  | [] => []
  | x :: xs => (x ^^ prev) :: levelChanges x xs

/-- `k` windows of `os` samples: 1 where a window holds a level change (R165). -/
def windowBits (os : Nat) : Nat → List Bool → List Bool
  | 0, _ => []
  | k + 1, cs => (cs.take os).any id :: windowBits os k (cs.drop os)

/-- Bit recovery by edge detection, with `s[-1] = s[0]`; a trailing part-window is discarded (R165). -/
def recoverBits (os : Nat) (s : List Bool) : List Bool :=
  windowBits os (s.length / os) (levelChanges (s.headD false) s)

/-- `((w << 1) | bit) & 0xFF` (R166). -/
def shiftIn (w : Byte) (b : Bool) : Byte := (w <<< 1) ||| (if b then 0x01#8 else 0x00#8)

/-- The search for the start byte at every bit offset: the bits after the first match (R166). -/
def huntSync : Byte → List Bool → Option (List Bool)
  | _, [] => none
  | w, b :: bs => if shiftIn w b = startByte then some bs else huntSync (shiftIn w b) bs

/-- Fixed 8-bit groups, MSB first; a trailing part-group is dropped (R166). -/
def cutBytes : List Bool → List Byte
  | b7 :: b6 :: b5 :: b4 :: b3 :: b2 :: b1 :: b0 :: rest =>
    [b7, b6, b5, b4, b3, b2, b1, b0].foldl shiftIn 0 :: cutBytes rest
  | _ => []

/-- `deserialize(s)`: the lock flag and the body, cut to BUF_LEN (R165 to R167). -/
def deserialize (P : Params) (s : List Bool) : Bool × List Byte :=
  match huntSync 0 (recoverBits P.os s) with
  | none => (false, [])
  | some bits => (true, (cutBytes bits).take P.bufLen)

/-- The level after the bits, each 1 toggling it (R170). -/
def finalLevel (l : Bool) : List Bool → Bool
  | [] => l
  | b :: bs => finalLevel (l ^^ b) bs

/-- Each bit toggles the level if it is 1, then the level is held for `os` samples (R170). -/
def nrzi (os : Nat) (l : Bool) : List Bool → List Bool
  | [] => []
  | b :: bs => List.replicate os (l ^^ b) ++ nrzi os (l ^^ b) bs

/-- `line_samples(bits, OS, lead, N)`: the reference host encoder, no part of the block (R170). -/
def lineSamples (bits : List Bool) (os lead n : Nat) : List Bool :=
  (List.replicate lead false ++ nrzi os false bits ++ List.replicate n (finalLevel false bits)).take n

end Sys2Proof.Machine
end

