-- ==== Sys2Proof/Machine/Ops.lean ====
section
/-! DEFINITION. The shared operations: the byte buffers, the error record, replies, the bounded wait, the line
primitives, and the entry into and the return from the block's one interrupt. -/

namespace Sys2Proof.Machine

/-- The outcome of an operation. -/
abbrev Out := Host.Outcome State Fault Refusal

/-! ### Byte buffers (20_memory.md section 3) -/

/-- The byte at an index, or none: it holds no value (10_state.md R56). -/
def readByte : Memory → Nat → Option Byte
  | [], _ => none
  | (j, v) :: rest, i => if i = j then some v else readByte rest i

/-- Store one byte, keeping the indices strictly rising. -/
def writeByte (i : Nat) (v : Byte) : Memory → Memory
  | [] => [(i, v)]
  | (j, w) :: rest =>
    if i < j then (i, v) :: (j, w) :: rest
    else if i = j then (i, v) :: rest
    else (j, w) :: writeByte i v rest

/-- The `n` bytes from index `i`, or none when one of them holds no value. -/
def readBytes (m : Memory) (i : Nat) : Nat → Option (List Byte)
  | 0 => some []
  | n + 1 =>
    match readByte m i, readBytes m (i + 1) n with
    | some v, some vs => some (v :: vs)
    | _, _ => none

/-- Store the bytes from index `i` up. -/
def writeBytes (i : Nat) : List Byte → Memory → Memory
  | [], m => m
  | v :: vs, m => writeBytes (i + 1) vs (writeByte i v m)

/-- `MemRead(buf, i, n)` (R63). -/
def memRead (P : Params) (m : Memory) (i n : Nat) : Except Fault (List Byte) :=
  if P.bufLen < i + n then .error .bufRange
  else match readBytes m i n with
    | some vs => .ok vs
    | none => .error .unwritten

/-- `MemWrite(buf, i, n, v)` with `n = len(v)` (R63, R62). -/
def memWrite (P : Params) (m : Memory) (i : Nat) (vs : List Byte) : Except Fault Memory :=
  if P.bufLen < i + vs.length then .error .bufRange else .ok (writeBytes i vs m)

/-- Go on with a result, or stop with its fault. -/
def orFault {α : Type} (r : Except Fault α) (k : α → Out) : Out :=
  match r with
  | .error f => .fault f
  | .ok a => k a

/-! ### Errors (60_exceptions.md R264) -/

/-- `raise e`: record the error. It transfers no control by itself. -/
def raise (e : Err) (s : State) : State :=
  { s with lastErr := e.code, errFlags := s.errFlags ||| (1#16 <<< e.num) }

/-! ### Replies (30_encoding.md R93, R94) -/

/-- A reply that carries RC only. -/
def Reply.code (rc : Byte) : Reply := { rc := rc, r0 := none, rn := none, rdata := none }

/-- A reply with no data: `RN = 0`. -/
def Reply.noData (rc : Byte) (r0 : Option Byte) : Reply := { rc := rc, r0 := r0, rn := some 0, rdata := some [] }

/-- A reply with `RN` bytes of data. -/
def Reply.withData (r0 : Option Byte) (data : List Byte) : Reply :=
  { rc := 0, r0 := r0, rn := some (BitVec.ofNat 16 data.length), rdata := some data }

/-- Deliver a reply to an issuer. -/
def deliver (who : Issuer) (r : Reply) (s : State) : State :=
  match who with
  | .app => { s with replyApp := some r }
  | .devlayer => { s with replyDev := some r }

/-- A refused request: RC = ERR_BADOP, no state of the block changes, and the model's refusal record is set
(R94, 60_exceptions.md R275). -/
def refuse (who : Issuer) (s : State) : State :=
  deliver who (Reply.code badopCode) { s with refusedOp := true }

/-- A request that ends in a recorded error: raise it and reply with its code. -/
def failRequest (who : Issuer) (e : Err) (s : State) : State :=
  deliver who (Reply.code e.code) (raise e s)

/-- A transport operation that DEVLAYER asked for has ended: its reply is delivered (41_transport.md R171, R172). A
SEND of the engine's own (R213) has no reply. -/
def answerBusy (r : Reply) (s : State) : State :=
  if s.busy then { s with busy := false, replyDev := some r } else s

/-! ### The REQ input and the bounded wait -/

/-- REQ (10_state.md R49). -/
def reqLevel (s : State) : Bool := if s.params.reqIsPh0 then s.phase.getLsbD 0 else s.reqPin

/-- What one check of a bounded wait finds (41_transport.md R151). -/
inductive Wait where
  | success | timeout | stay
deriving DecidableEq, Repr

/-- The bounded wait (R151): REQ is tested before the elapsed time `(TIMER - T0) mod 2^32`. -/
def waitReq (level : Bool) (t0 limit : Word32) (s : State) : Wait :=
  if reqLevel s = level then .success
  else if limit ≤ s.timer - t0 then .timeout
  else .stay

/-! ### The line -/

/-- `emit(bits)` (41_transport.md R155). -/
def emit (bits : List Bool) (s : State) : State := { s with txBits := s.txBits ++ bits }

/-- `capture(N)` (41_transport.md R159, 20_memory.md R68): the N samples HOST presents, and the state with them
consumed. Bytes HOST has queued, be they none at all, are presented through the reference encoder, 8 idle cells first
(30_encoding.md R99); raw samples are presented as they stand; a sample HOST has not queued is a free value
(notes/assumptions/6.md). -/
def capture (n : Nat) (s : State) : List Bool × State :=
  match s.hostLine with
  | some bytes => (lineSamples (serialize bytes) s.params.os (8 * s.params.os) n, { s with hostLine := none })
  | none =>
    (s.samples.take n ++ (List.range (n - s.samples.length)).map (fun k => Config.freeSample (s.draws + k)),
      { s with samples := s.samples.drop n, draws := s.draws + (n - s.samples.length) })

/-! ### Decode, with its registers -/

/-- `decode(b)` with the LAST_CHK update: every structurally valid decode does `LAST_CHK <- rx_chk;
LAST_CHK_V <- 1` (40_codec.md R131), a structural error leaves both (R123). -/
def runDecode (b : List Byte) (s : State) : DecodeResult × State :=
  let d := decodeBody s.params s.lastChk s.lastChkV b
  match d.rx with
  | some rx => (d, { s with lastChk := rx, lastChkV := true })
  | none => (d, s)

/-! ### SEND and RECV (41_transport.md sections 2 and 3) -/

/-- SEND(raw) (R153, R154). -/
def startSend (raw : List Byte) (s : State) : Except Fault State :=
  match memWrite s.params s.txBuf 0 raw with
  | .error f => .error f
  | .ok m =>
    .ok { s with txBuf := m, txLen := raw.length, ack := false, trT0 := s.timer,
                 trLimit := s.params.tSendReqRise, trState := .sWaitRise }

/-- RECV(L) (R160). -/
def startRecv (len : Nat) (s : State) : State :=
  { s with ack := false, rxExpect := len, trT0 := s.timer, trLimit := s.params.tRecvReqRise, trState := .rWaitRise }

/-- The transport operation ends with a result and the reply due for it. -/
def endTransfer (res : TrResult) (rep : Reply) (s : State) : State :=
  answerBusy rep { s with trResult := res, trState := .idle }

/-- A transport wait timed out (R157, R161, R163, R164): the error is raised, ACK stays. -/
def timeoutTransfer (res : TrResult) (e : Err) (s : State) : State :=
  endTransfer res (Reply.code e.code) (raise e s)

/-! ### The interrupt (60_exceptions.md R266 to R269) -/

/-- IMASK (10_state.md R39). -/
def imask (s : State) : Bool := s.trState != .idle

/-- An ISR start is enabled (42_bus_fsm.md R224). -/
def isrCanStart (s : State) : Bool := s.irqPend && !imask s && s.isrState == .idle

/-- Interrupt entry: the ISR start step (R224, R268). It saves nothing and switches nothing. The request is taken,
and the prefetch begins only with Enable, REQ = 1 and STAGED = 0; otherwise the request is discarded. -/
def takeInterrupt (s : State) : State :=
  if classify s.params s.phase = .enable ∧ reqLevel s = true ∧ s.staged = false then
    { s with irqPend := false, isrT0 := s.timer, isrState := .waitRise }
  else { s with irqPend := false }

/-- Interrupt return (R269): the step that sets ISR_STATE to I_IDLE. Nothing is restored. -/
def returnInterrupt (s : State) : State := { s with isrState := .idle }

/-- POLL has a step (42_bus_fsm.md R192, R228): ISR neither is active nor is about to start. -/
def pollHasStep (s : State) : Bool := s.isrState == .idle && !isrCanStart s

/-- Bus reset, one step (R196): every ADDR, STAGED, ACK and CUR_KIND are cleared, the rest is kept (R292). -/
def resetBus (s : State) : State :=
  { s with dev := s.dev.map (fun d => { d with addr := 0 }), staged := false, ack := false, curKind := .none,
           eng := .reset }

end Sys2Proof.Machine
end

