-- ==== Sys2Proof/Machine/Flags.lean ====
section
/-! DEFINITION. The register codes and the CSR words that present the status flags (spec/10_state.md R31, R32, R37,
R46, R54). The block has no ALU condition codes (R46). -/

namespace Sys2Proof.Machine

/-- The ENG code (R31). -/
def engCode : Eng → Nat
  | .idle => 0
  | .reset => 1
  | .enable => 2
  | .claimWait => 3
  | .decode => 4
  | .initReply => 5
  | .device => 6
  | .finish => 7

/-- BUS_STATE, derived from ENG (R32). -/
def busState : Eng → BusPhase
  | .idle => .idle
  | .reset => .reset
  | .enable => .enable
  | .claimWait => .enable
  | .decode => .enable
  | .initReply => .enable
  | .device => .enable
  | .finish => .enable

/-- The BusPhase code: Idle 0, Reset 1, Enable 2 (R32). The code of `classify(PHASE)` in the PHASE CSR is the same
(notes/assumptions/10.md). -/
def phaseCode : BusPhase → Nat
  | .idle => 0
  | .reset => 1
  | .enable => 2

/-- The TR_STATE code (R37). -/
def trCode : TrState → Nat
  | .idle => 0
  | .sWaitRise => 1
  | .sWaitFall => 2
  | .rWaitRise => 3
  | .rWaitFall => 4

/-- The TR_RESULT code (R54). -/
def resultCode : TrResult → Nat
  | .ok => 0
  | .timeoutRise => 1
  | .timeoutFall => 2
  | .decodeFail => 3

/-- The CUR_KIND code (R36). -/
def kindCode : CurKind → Nat
  | .none => 0
  | .init => 1
  | .cmd => 2

/-- A flag at a bit of a CSR word. -/
def flagAt (b : Bool) (k : Nat) : Word32 := bit32 b <<< k

/-- The low `width` bits of a number, at bit `k` of a CSR word. -/
def fieldAt (v width k : Nat) : Word32 := BitVec.ofNat 32 (v % 2 ^ width) <<< k

/-- A byte at bit `k` of a CSR word. -/
def byteField (b : Byte) (k : Nat) : Word32 := b.setWidth 32 <<< k

/-- STATUS, offset 0x000 (R54). -/
def statusWord (s : State) : Word32 :=
  fieldAt (engCode s.eng) 3 0 ||| fieldAt (phaseCode (busState s.eng)) 2 3 ||| flagAt s.staged 5 ||| flagAt s.ack 6
    ||| flagAt s.irqPend 7 ||| flagAt (s.isrState == .waitRise) 8 ||| fieldAt (trCode s.trState) 3 9
    ||| flagAt s.lastChkV 12 ||| flagAt s.mbLock 13 ||| flagAt s.dispValid 14

/-- PHASE, offset 0x004 (R54). -/
def phaseWord (s : State) : Word32 :=
  fieldAt s.phase.toNat 4 0 ||| flagAt (reqLevel s) 4 ||| fieldAt s.prevPhase.toNat 4 8
    ||| fieldAt (phaseCode (classify s.params s.phase)) 2 12

/-- CUR, offset 0x020 (R54). -/
def curWord (s : State) : Word32 :=
  fieldAt (kindCode s.curKind) 2 0 ||| fieldAt s.curSlot 8 8 ||| byteField s.curStatus 16

/-- TR, offset 0x024 (R54). -/
def trWord (s : State) : Word32 := fieldAt (resultCode s.trResult) 3 0 ||| fieldAt s.rxLen 16 16

/-- DEV[i] (R54). -/
def devWord (d : Device) : Word32 :=
  flagAt d.present 0 ||| flagAt d.active 1 ||| byteField d.addr 8 ||| byteField d.dtype 16

/-- What ACK_OUT shows the bus (R50). -/
inductive AckOut where
  | driven | highImpedance
deriving DecidableEq, Repr

/-- ACK_OUT: driven active when ACK = 1, high impedance when ACK = 0 (R50). -/
def ackOut (s : State) : AckOut := if s.ack then .driven else .highImpedance

end Sys2Proof.Machine
end

