-- ==== Sys2Proof/Machine/Operands.lean ====
section
/-! DEFINITION. Where the operations take their operands from: the device table and the chain, the phase class, the
admission states of port requests, and the offered request. -/

namespace Sys2Proof.Machine

/-! ### The device table and the chain (10_state.md R41) -/

/-- Slot `i` of the device table. -/
def devAt (s : State) (i : Nat) : Device := s.dev.getD i Device.empty

/-- Write slot `i` of the device table. -/
def setDev (i : Nat) (d : Device) (s : State) : State := { s with dev := s.dev.set i d }

/-- The first slot in CHAIN order whose device meets the test. -/
def firstInChain (s : State) (test : Device → Bool) : Option Nat := s.chain.find? (fun i => test (devAt s i))

/-- `route(d)` (42_bus_fsm.md R203, R204). -/
def route (d : Byte) (s : State) : Option Nat := firstInChain s (fun v => v.active && v.addr != 0 && v.addr == d)

/-- `init_target()` (42_bus_fsm.md R205). -/
def initTarget (s : State) : Option Nat := firstInChain s (fun v => v.active && v.addr == 0)

/-- The first slot in CHAIN order that holds `addr`, none for 0x00 (43_registry.md R242, R244). -/
def slotByAddr (addr : Byte) (s : State) : Option Nat :=
  if addr = 0 then none else firstInChain s (fun v => v.addr == addr)

/-- Some slot other than `i` in CHAIN is active and unaddressed (42_bus_fsm.md R213). -/
def otherUnaddressed (i : Nat) (s : State) : Bool :=
  s.chain.any (fun j => j != i && (devAt s j).active && (devAt s j).addr == 0)

/-! ### The sampled phase -/

/-- `ph = classify(PHASE)` (42_bus_fsm.md R192). -/
def phaseClass (s : State) : BusPhase := classify s.params s.phase

/-! ### Admission of port requests (43_registry.md R240 to R245, 41_transport.md R171, R172) -/

/-- No command is in flight: ENG is E_IDLE, E_RESET or E_ENABLE (43_registry.md R245). -/
def noCommand : Eng → Bool
  | .idle => true
  | .reset => true
  | .enable => true
  | .claimWait => false
  | .decode => false
  | .initReply => false
  | .device => false
  | .finish => false

/-- ADD_DEVICE and REMOVE_DEVICE: APP, TR_IDLE, no command in flight (R240, R241). -/
def admitsRegistry (who : Issuer) (s : State) : Bool :=
  who == .app && s.trState == .idle && noCommand s.eng

/-- SET_ACTIVE and SET_ACTIVE_SLOT: APP as R240, or DEVLAYER during E_DEVICE with TR_IDLE (R242, R243). -/
def admitsActivation (who : Issuer) (s : State) : Bool :=
  match who with
  | .app => admitsRegistry .app s
  | .devlayer => s.eng == .device && s.trState == .idle

/-- SEND_REPLY and RECV_DATA: DEVLAYER, E_DEVICE, DISP_VALID, TR_IDLE (41_transport.md R171, R172), and not under an
IOERROR dispatch (42_bus_fsm.md R219). -/
def admitsTransfer (who : Issuer) (s : State) : Bool :=
  who == .devlayer && s.eng == .device && s.dispValid && s.trState == .idle && s.dispKind != .ioerror

/-- DEV_DONE: DEVLAYER, E_DEVICE, TR_IDLE (42_bus_fsm.md R217). -/
def admitsDone (who : Issuer) (s : State) : Bool :=
  who == .devlayer && s.eng == .device && s.trState == .idle

/-! ### The offered request (42_bus_fsm.md R192) -/

/-- The issuer has a request that is not yet answered: it takes no other step (R192). -/
def waiting (who : Issuer) (s : State) : Bool :=
  match who with
  | .app => s.reqApp.isSome
  | .devlayer => s.reqDev.isSome || s.busy

/-- A request is offered. -/
def requestOffered (s : State) : Bool := s.reqApp.isSome || s.reqDev.isSome

/-- The request POLL takes, its issuer, and the state with it taken. With both offered the choice is a free value
(notes/assumptions/7.md). -/
def takeRequest (s : State) : Option (Issuer × Request × State) :=
  match s.reqApp, s.reqDev with
  | none, none => none
  | some r, none => some (.app, r, { s with reqApp := none })
  | none, some r => some (.devlayer, r, { s with reqDev := none })
  | some r, some r' =>
    if Config.portPick s.draws then some (.app, r, { s with reqApp := none, draws := s.draws + 1 })
    else some (.devlayer, r', { s with reqDev := none, draws := s.draws + 1 })

end Sys2Proof.Machine
end

