-- ==== Sys2Proof/Machine/Csr.lean ====
section
/-! DEFINITION. The CSR view (spec/10_state.md R54, R55, spec/20_memory.md R57, R66, R69). -/

namespace Sys2Proof.Machine

/-- The bytes of the CSR space, offsets 0x000 to 0x5FF (20_memory.md R57). -/
def csrSize : Nat := 0x600

/-- The word at an aligned offset of the CSR space (R54). A reserved offset reads 0; CHAIN[k] reads 0xFF at and above
CHAIN_LEN (notes/assumptions/10.md). -/
def csrWord (s : State) (off : Nat) : Word32 :=
  if off = 0x000 then statusWord s
  else if off = 0x004 then phaseWord s
  else if off = 0x008 then byteField s.lastErr 0
  else if off = 0x00C then s.errFlags.setWidth 32
  else if off = 0x010 then byteField s.lastChk 0
  else if off = 0x014 then s.timer
  else if off = 0x018 then fieldAt s.mbLen 16 0
  else if off = 0x01C then fieldAt s.chain.length 8 0
  else if off = 0x020 then curWord s
  else if off = 0x024 then trWord s
  else if 0x200 ≤ off ∧ off < 0x400 then
    if (off - 0x200) / 4 < s.params.maxDevices then devWord (devAt s ((off - 0x200) / 4)) else 0
  else if 0x400 ≤ off ∧ off < 0x600 then
    match s.chain[(off - 0x400) / 4]? with
    | some i => fieldAt i 8 0
    | none => 0xFF#32
  else 0

/-- The offset of an admitted access: an aligned 32-bit word of the window at CSR_BASE (R66, R69). -/
def csrOffset (P : Params) (addr width : Nat) : Except Fault Nat :=
  if P.csrBase ≤ addr ∧ addr < P.csrBase + csrSize ∧ width = 32 ∧ (addr - P.csrBase) % 4 = 0 then
    .ok (addr - P.csrBase)
  else .error .csrAccess

/-- Read a CSR: no side effect on the block (R55); the word is the read's result. -/
def csrRead (addr width : Nat) (s : State) : Out :=
  orFault (csrOffset s.params addr width) (fun off => .next { s with csrOut := csrWord s off })

/-- Write a CSR: ERR_FLAGS is write-1-to-clear, every other register and reserved offset ignores writes (R55). -/
def csrWrite (addr width : Nat) (v : Word32) (s : State) : Out :=
  orFault (csrOffset s.params addr width) (fun off =>
    if off = 0x00C then .next { s with errFlags := s.errFlags &&& ~~~(v.setWidth 16) } else .next s)

end Sys2Proof.Machine
end

