-- ==== Sys2Proof/Machine/Interrupt.lean ====
section
/-! DEFINITION. The prefetch interrupt and the timer (spec/42_bus_fsm.md R223 to R226, spec/10_state.md R44). -/

namespace Sys2Proof.Machine

/-- The edge detector (R223): any change of a phase line is an edge. -/
def detectEdge (s : State) : State :=
  { s with irqPend := s.irqPend || s.phase != s.prevPhase, prevPhase := s.phase }

/-- EDGE_DETECT (R223): the detector alone. It is part of each TIMER step and no step of its own
(notes/assumptions/11.md). -/
def execEdgeDetect (s : State) : Out := .next (detectEdge s)

/-- TIMER_TICK (R44, 70_reset_and_hazards.md R302): one TIMER step, the tick and the edge detector. -/
def execTimerTick (s : State) : Out := .next (detectEdge { s with timer := s.timer + 1 })

/-- ISR_START (R224). -/
def execIsrStart (s : State) : Out := .next (takeInterrupt s)

/-- ISR stage (R226): capture, deserialize, fill the mailbox, set STAGED, return. -/
def stageCommand (s : State) : Out :=
  let c := capture (nsamp s.params.os s.params.cmdPacketLen) s
  let d := deserialize s.params c.1
  orFault (memWrite s.params s.mb 0 d.2) (fun m =>
    .next (returnInterrupt { c.2 with mb := m, mbLen := d.2.length, mbLock := d.1, staged := true }))

/-- ISR_STAGE (R226). -/
def execIsrStage (s : State) : Out := stageCommand s

/-- I_WAIT_RISE (R225): a prefetch that finds no command stages nothing and raises nothing. -/
def execIWaitRise (s : State) : Out :=
  match waitReq true s.isrT0 s.params.tRecvReqRise s with
  | .success => stageCommand s
  | .timeout => .next (returnInterrupt s)
  | .stay => .next s

end Sys2Proof.Machine
end

