-- ==== Sys2Proof/Machine/Transport.lean ====
section
/-! DEFINITION. The codec's port requests (spec/40_codec.md R118, R132), the device layer's transport requests and
DEV_DONE (spec/41_transport.md R171, R172, spec/42_bus_fsm.md R217), and the transport's wait states
(41_transport.md R156 to R164). -/

namespace Sys2Proof.Machine

/-! ### Codec requests -/

/-- ENCODE (R118): writes no block state; a payload above MAX_PAYLOAD is ERR_PARAM (R117). -/
def execEncodePacket (who : Issuer) (sourceId packetType status : Byte) (n : BitVec 16) (data : List Byte)
    (s : State) : Out :=
  if data.length ≠ n.toNat then .next (refuse who s)
  else if maxPayload s.params < n.toNat then
    .next (deliver who (Reply.noData Err.param.code none) (raise .param s))
  else .next (deliver who (Reply.withData none (encodeRaw s.params sourceId packetType status data)) s)

/-- DECODE (R132): RC stays 0, the verdict is R0; N above BUF_LEN is refused (30_encoding.md R94). -/
def execDecodePacket (who : Issuer) (n : BitVec 16) (data : List Byte) (s : State) : Out :=
  if data.length ≠ n.toNat ∨ s.params.bufLen < n.toNat then .next (refuse who s)
  else
    match runDecode data s with
    | (.good r _, s') => .next (deliver who (Reply.withData (some 1) r.data) s')
    | (.bad e _, s') => .next (deliver who (Reply.noData 0 (some 0)) (raise e s'))

/-! ### Device-layer requests -/

/-- SEND_REPLY (R171): a packet whose source id is the dispatched device's address. The reply comes when the SEND
ends. -/
def execSendReply (who : Issuer) (packetType status : Byte) (n : BitVec 16) (data : List Byte) (s : State) : Out :=
  if !admitsTransfer who s || decide (data.length ≠ n.toNat) then .next (refuse who s)
  else if maxPayload s.params < n.toNat then
    .next (deliver who (Reply.noData Err.param.code none) (raise .param s))
  else
    orFault (startSend (encodeRaw s.params (devAt s s.dispSlot).addr packetType status data) s)
      (fun s' => .next { s' with busy := true })

/-- RECV_DATA (R172): N is the expected raw length, 1..BUF_LEN. The reply comes when the RECV ends. -/
def execRecvData (who : Issuer) (n : BitVec 16) (s : State) : Out :=
  if !admitsTransfer who s || decide (n.toNat = 0) || decide (s.params.bufLen < n.toNat) then .next (refuse who s)
  else .next { startRecv n.toNat s with busy := true }

/-- DEV_DONE (42_bus_fsm.md R217): the return from the device layer. -/
def execDevDone (who : Issuer) (s : State) : Out :=
  if !admitsDone who s then .next (refuse who s)
  else .next (deliver who (Reply.code 0) { s with dispValid := false, eng := .finish })

/-! ### Wait states -/

/-- S_WAIT_RISE (R156, R157, R158): on REQ = 1 the packet is emitted and ACK asserted. -/
def execSWaitRise (s : State) : Out :=
  match waitReq true s.trT0 s.trLimit s with
  | .stay => .next s
  | .timeout => .next (timeoutTransfer .timeoutRise .timeoutReqRise s)
  | .success =>
    orFault (memRead s.params s.txBuf 0 s.txLen) (fun raw =>
      .next { emit (serialize raw) s with
        ack := true, trT0 := s.timer, trLimit := s.params.tSendReqFall, trState := .sWaitFall })

/-- S_WAIT_FALL (R164): ACK stays as it is. -/
def execSWaitFall (s : State) : Out :=
  match waitReq false s.trT0 s.trLimit s with
  | .stay => .next s
  | .timeout => .next (timeoutTransfer .timeoutFall .timeoutReqFall s)
  | .success => .next (endTransfer .ok (Reply.code 0) s)

/-- R_WAIT_RISE (R161, R162): on REQ = 1 the capture is deserialized into RXBUF and ACK asserted. -/
def execRWaitRise (s : State) : Out :=
  match waitReq true s.trT0 s.trLimit s with
  | .stay => .next s
  | .timeout => .next (timeoutTransfer .timeoutRise .timeoutReqRise s)
  | .success =>
    let c := capture (nsamp s.params.os s.rxExpect) s
    let d := deserialize s.params c.1
    orFault (memWrite s.params s.rxBuf 0 d.2) (fun m =>
      .next { c.2 with
        rxBuf := m, rxLen := d.2.length, rxLock := d.1, ack := true, trT0 := s.timer,
        trLimit := s.params.tRecvReqFall, trState := .rWaitFall })

/-- R_WAIT_FALL (R163): the received body is decoded once REQ has fallen. -/
def execRWaitFall (s : State) : Out :=
  match waitReq false s.trT0 s.trLimit s with
  | .stay => .next s
  | .timeout => .next (timeoutTransfer .timeoutFall .timeoutReqFall s)
  | .success =>
    if s.rxLock = false then .next (endTransfer .decodeFail (Reply.noData 0 (some 0)) (raise .nosync s))
    else
      orFault (memRead s.params s.rxBuf 0 s.rxLen) (fun b =>
        match runDecode b s with
        | (.good r _, s') => .next (endTransfer .ok (Reply.withData (some 1) r.data) s')
        | (.bad e _, s') => .next (endTransfer .decodeFail (Reply.noData 0 (some 0)) (raise e s')))

end Sys2Proof.Machine
end

