-- ==== Sys2Proof/Machine/Engine.lean ====
section
/-! DEFINITION. The steps of the service engine (spec/42_bus_fsm.md R193 to R217), and the command opcodes it
dispatches (R215, R220, 00_scope.md R21, 30_encoding.md R95). -/

namespace Sys2Proof.Machine

/-! ### Idle and Reset -/

/-- BUS_RESET (R196). -/
def execBusReset (s : State) : Out := .next (resetBus s)

/-- E_IDLE (R193). -/
def execEIdle (s : State) : Out :=
  match phaseClass s with
  | .reset => .next (resetBus s)
  | .enable => .next { s with eng := .enable }
  | .idle => .next s

/-- E_RESET (R194): a busy-poll until the phase is not Reset. -/
def execEReset (s : State) : Out :=
  match phaseClass s with
  | .reset => .next s
  | .enable => .next { s with eng := .idle }
  | .idle => .next { s with eng := .idle }

/-! ### Claim -/

/-- A command is dropped (R202): the error is recorded and the engine goes to E_FINISH. -/
def dropCommand (e : Err) (s : State) : State := { raise e s with eng := .finish }

/-- The end of the claim (R201, R206, R207): the target takes the command and ACK is asserted, or nobody does. -/
def claimAs (kind : CurKind) (target : Option Nat) (s : State) : State :=
  match target with
  | none => { s with eng := .finish }
  | some t =>
    { s with curKind := kind, curSlot := t, ack := true, wT0 := s.timer, wLimit := s.params.tRecvReqFall,
             eng := .claimWait }

/-- The claim of a staged command (R201): the opcode and DEST are peeked, before any checksum check (R208). -/
def claimStaged (s : State) : Out :=
  if s.mbLock = false then .next (dropCommand .nosync s)
  else if s.mbLen < 7 then .next (dropCommand .trunc s)
  else
    orFault (memRead s.params s.mb 0 s.mbLen) (fun b =>
      if peekOpcode b = some 0x85#8 then .next (claimAs .init (initTarget s) s)
      else .next (claimAs .cmd (route (peekDest b) s) s))

/-- CLAIM (R201). -/
def execClaim (s : State) : Out := claimStaged s

/-- INIT (30_encoding.md R95): the claim of a command whose opcode is INIT_OPCODE runs the addressing protocol: its
target is the first active unaddressed device (42_bus_fsm.md R201, R205). -/
def execInitCmd (s : State) : Out := .next (claimAs .init (initTarget s) s)

/-- E_ENABLE (R198). -/
def execEEnable (s : State) : Out :=
  match phaseClass s with
  | .reset => .next (resetBus s)
  | .idle => .next { s with eng := .idle }
  | .enable => if s.staged then claimStaged s else .next s

/-- E_CLAIM_WAIT (R209). -/
def execEClaimWait (s : State) : Out :=
  match waitReq false s.wT0 s.wLimit s with
  | .success => .next { s with eng := .decode }
  | .timeout => .next (dropCommand .timeoutReqFall s)
  | .stay => .next s

/-! ### Decode and dispatch -/

/-- The full decode of the staged body (R210), its result handed on with the state after it. -/
def withStaged (s : State) (k : DecodeResult → State → Out) : Out :=
  orFault (memRead s.params s.mb 0 s.mbLen) (fun b => k (runDecode b s).1 (runDecode b s).2)

/-- INIT assignment of a decoded record (R213): the address, the status, and the SEND of the reply. -/
def assignInit (r : DecRec) (s : State) : Out :=
  let s1 := setDev s.curSlot { devAt s s.curSlot with addr := r.dest } s
  let status := if otherUnaddressed s.curSlot s1 then 0x00#8 else 0xFF#8
  let s2 := { s1 with curDec := r, curStatus := status }
  orFault (startSend (encodeRaw s.params r.dest 0x81#8 status []) s2) (fun s3 => .next { s3 with eng := .initReply })

/-- Dispatch of a decoded CMD (R215). -/
def dispatch (r : DecRec) (s : State) : State :=
  { s with curDec := r, dispSlot := s.curSlot, dispKind := .cmd, dispCap := capOf s.params r.opcode, dispCmd := r,
           dispValid := true, eng := .device }

/-- Dispatch of an I/O error (R212): DISP_CMD is not written. -/
def dispatchError (s : State) : State :=
  { s with dispSlot := s.curSlot, dispKind := .ioerror, dispCap := .noCap, dispValid := true, eng := .device }

/-- E_DECODE (R210, R211). -/
def execEDecode (s : State) : Out :=
  withStaged s (fun d s' =>
    match d with
    | .good r _ => if s'.curKind = .init then assignInit r s' else .next (dispatch r s')
    | .bad e _ =>
      if s'.curKind = .init then .next { raise e s' with eng := .finish } else .next (dispatchError (raise e s')))

/-- INIT_ASSIGN (R213): the form of E_DECODE for an INIT that decodes; without a good decode it is no step. -/
def execInitAssign (s : State) : Out :=
  withStaged s (fun d s' =>
    match d with
    | .good r _ => assignInit r s'
    | .bad _ _ => .next s)

/-- DISPATCH_CMD (R215): the form of E_DECODE for a CMD that decodes; without a good decode it is no step. -/
def execDispatchCmd (s : State) : Out :=
  withStaged s (fun d s' =>
    match d with
    | .good r _ => .next (dispatch r s')
    | .bad _ _ => .next s)

/-- DISPATCH_IOERROR (R212): the form of E_DECODE for a CMD whose decode fails; with a good decode it is no step. -/
def execDispatchIoerror (s : State) : Out :=
  withStaged s (fun d s' =>
    match d with
    | .good _ _ => .next s
    | .bad e _ => .next (dispatchError (raise e s')))

/-- Dispatch of the staged command whose decoded data is `data` (R215, R92): the form of DISPATCH_CMD for one opcode.
When the staged command is another one it is no step. -/
def dispatchCommand (data : List Byte) (s : State) : Out :=
  withStaged s (fun d s' =>
    match d with
    | .good r _ => if r.data = data then .next (dispatch r s') else .next s
    | .bad _ _ => .next s)

/-- CMD_STATUS_80: opcode 0x80, class STATUS by default (00_scope.md R21). -/
def execCmdStatus80 (params : List Byte) (s : State) : Out := dispatchCommand (0x80#8 :: params) s

/-- CMD_READ_81: opcode 0x81, class READ by default (R21). -/
def execCmdRead81 (params : List Byte) (s : State) : Out := dispatchCommand (0x81#8 :: params) s

/-- CMD_WRITE_82: opcode 0x82, class WRITE by default (R21). -/
def execCmdWrite82 (params : List Byte) (s : State) : Out := dispatchCommand (0x82#8 :: params) s

/-- CMD_CONTROL_84: opcode 0x84, class CONTROL by default (R21). -/
def execCmdControl84 (params : List Byte) (s : State) : Out := dispatchCommand (0x84#8 :: params) s

/-- CMD_OPEN_86: opcode 0x86, class OPEN by default (R21). -/
def execCmdOpen86 (params : List Byte) (s : State) : Out := dispatchCommand (0x86#8 :: params) s

/-- CMD_CLOSE_87: opcode 0x87, class CLOSE by default (R21). -/
def execCmdClose87 (params : List Byte) (s : State) : Out := dispatchCommand (0x87#8 :: params) s

/-- CMD_READ_88: opcode 0x88, class READ by default (R21). -/
def execCmdRead88 (params : List Byte) (s : State) : Out := dispatchCommand (0x88#8 :: params) s

/-- CMD_WRITE_89: opcode 0x89, class WRITE by default (R21). -/
def execCmdWrite89 (params : List Byte) (s : State) : Out := dispatchCommand (0x89#8 :: params) s

/-- CMD_NONE: any other opcode, or no data at all: dispatched with the class OPCODE_CAP gives it, NONE by default, and
the device layer answers BADCMD_CODE (R220). -/
def execCmdNone (data : List Byte) (s : State) : Out := dispatchCommand data s

/-! ### Completion -/

/-- E_INIT_REPLY (R214): the first ENG step after the SEND ends, whatever TR_RESULT holds. -/
def execEInitReply (s : State) : Out := .next { s with eng := .finish }

/-- E_DEVICE (R217): the engine makes no step of its own. -/
def execEDevice (s : State) : Out := .next s

/-- E_FINISH (R216). -/
def execEFinish (s : State) : Out :=
  .next { s with ack := false, staged := false, curKind := .none, dispValid := false, eng := .idle }

end Sys2Proof.Machine
end

