-- ==== Sys2Proof/Machine/Registry.lean ====
section
/-! DEFINITION. The device registry's port requests (spec/43_registry.md R240 to R244). Each is one POLL step. A
request the rule does not admit, or with a field out of range, is refused (30_encoding.md R94). -/

namespace Sys2Proof.Machine

/-- ADD_DEVICE (R240): a new device goes to the front of the chain, inactive and unaddressed. -/
def execAddDevice (who : Issuer) (slot dtype : Byte) (s : State) : Out :=
  if !admitsRegistry who s || decide (s.params.maxDevices ≤ slot.toNat) then .next (refuse who s)
  else if (devAt s slot.toNat).present then .next (failRequest who .slotBusy s)
  else
    .next (deliver who (Reply.code 0)
      { setDev slot.toNat { present := true, active := false, addr := 0, dtype := dtype } s with
        chain := slot.toNat :: s.chain })

/-- REMOVE_DEVICE (R241): unlink the slot; the others keep their order. -/
def execRemoveDevice (who : Issuer) (slot : Byte) (s : State) : Out :=
  if !admitsRegistry who s || decide (s.params.maxDevices ≤ slot.toNat) then .next (refuse who s)
  else if !(devAt s slot.toNat).present then .next (failRequest who .slotEmpty s)
  else
    .next (deliver who (Reply.code 0)
      { setDev slot.toNat Device.empty s with chain := s.chain.filter (fun i => i != slot.toNat) })

/-- SET_ACTIVE (R242): by address; no device has the address 0x00. -/
def execSetActive (who : Issuer) (addr v : Byte) (s : State) : Out :=
  if !admitsActivation who s || decide (1 < v.toNat) then .next (refuse who s)
  else
    match slotByAddr addr s with
    | none => .next (failRequest who .noDevice s)
    | some i => .next (deliver who (Reply.code 0) (setDev i { devAt s i with active := v == 1 } s))

/-- SET_ACTIVE_SLOT (R243): by slot, so that an unaddressed device can be enabled. -/
def execSetActiveSlot (who : Issuer) (slot v : Byte) (s : State) : Out :=
  if !admitsActivation who s || decide (s.params.maxDevices ≤ slot.toNat) || decide (1 < v.toNat) then
    .next (refuse who s)
  else if !(devAt s slot.toNat).present then .next (failRequest who .slotEmpty s)
  else
    .next (deliver who (Reply.code 0) (setDev slot.toNat { devAt s slot.toNat with active := v == 1 } s))

/-- DEVICE_BY_ADDR (R244): a lookup that changes nothing and ignores ACTIVE; 0xFF when absent. -/
def execDeviceByAddr (who : Issuer) (addr : Byte) (s : State) : Out :=
  if s.trState != .idle then .next (refuse who s)
  else
    .next (deliver who
      { rc := 0, rn := none, rdata := none,
        r0 := some (match slotByAddr addr s with
          | some i => BitVec.ofNat 8 i
          | none => 0xFF#8) } s)

/-- PORT_RESERVED (30_encoding.md R94): an op code not in the table is refused. -/
def execPortReserved (who : Issuer) (_op : Byte) (s : State) : Out := .next (refuse who s)

end Sys2Proof.Machine
end

