-- ==== Sys2Proof/Machine/Poll.lean ====
section
/-! DEFINITION. One POLL step (spec/42_bus_fsm.md R192): a transport step, else a port request, else an ENG step. -/

namespace Sys2Proof.Machine

/-- Execute a port request (30_encoding.md R93). -/
def servePort (who : Issuer) (r : Request) (s : State) : Out :=
  match portKind r.op with
  | .addDevice => execAddDevice who r.a r.b s
  | .removeDevice => execRemoveDevice who r.a s
  | .setActive => execSetActive who r.a r.b s
  | .setActiveSlot => execSetActiveSlot who r.a r.b s
  | .deviceByAddr => execDeviceByAddr who r.a s
  | .encodePacket => execEncodePacket who r.a r.b r.c r.n r.data s
  | .decodePacket => execDecodePacket who r.n r.data s
  | .sendReply => execSendReply who r.a r.b r.n r.data s
  | .recvData => execRecvData who r.n s
  | .devDone => execDevDone who s
  | .reserved => execPortReserved who r.op s

/-- One ENG step: the state's rule (R193 to R217). -/
def engStep (s : State) : Out :=
  match s.eng with
  | .idle => execEIdle s
  | .reset => execEReset s
  | .enable => execEEnable s
  | .claimWait => execEClaimWait s
  | .decode => execEDecode s
  | .initReply => execEInitReply s
  | .device => execEDevice s
  | .finish => execEFinish s

/-- POLL_DISPATCH (R192). -/
def execPollDispatch (s : State) : Out :=
  match s.trState with
  | .sWaitRise => execSWaitRise s
  | .sWaitFall => execSWaitFall s
  | .rWaitRise => execRWaitRise s
  | .rWaitFall => execRWaitFall s
  | .idle =>
    match takeRequest s with
    | some (who, r, s') => servePort who r s'
    | none => engStep s

end Sys2Proof.Machine
end

