-- ==== Sys2Proof/Machine/Wire.lean ====
section
/-! DEFINITION. The wire codes as HOST's steps (spec/00_scope.md R3, R29; notes/assumptions/12.md): HOST drives a
phase vector (spec/10_state.md R48), or queues frame bytes for the line the next capture reads (spec/30_encoding.md
R98, R80 to R90). Recognising them is the classifier's, the deserializer's and decode's. -/

namespace Sys2Proof.Machine

/-- HOST drives the phase lines; the edge is seen at the next TIMER step (R48, 42_bus_fsm.md R223). -/
def drivePhase (p : Phase) (s : State) : State := { s with phase := p }

/-- HOST queues bytes for the next capture (30_encoding.md R98), after any it has queued already. An empty list is
queued too: the next capture then reads an idle line (R99). -/
def queueLine (bytes : List Byte) (s : State) : State := { s with hostLine := some (s.hostLine.getD [] ++ bytes) }

/-- PHASE_RESET (R91): a vector of RESET_SET. -/
def execPhaseReset (p : Phase) (s : State) : Out := .next (drivePhase p s)

/-- PHASE_ENABLE (R91): a vector of ENABLE_SET. -/
def execPhaseEnable (p : Phase) (s : State) : Out := .next (drivePhase p s)

/-- PHASE_IDLE (R190, R191): any other vector. -/
def execPhaseIdle (p : Phase) (s : State) : Out := .next (drivePhase p s)

/-- TYPE_COMMAND (R85). -/
def execTypeCommand (s : State) : Out := .next (queueLine [0x80#8] s)

/-- TYPE_STATUS (R85). -/
def execTypeStatus (s : State) : Out := .next (queueLine [0x81#8] s)

/-- TYPE_DATA (R85). -/
def execTypeData (s : State) : Out := .next (queueLine [0x82#8] s)

/-- TYPE_RESERVED (R85): passed through like any other. -/
def execTypeReserved (t : Byte) (s : State) : Out := .next (queueLine [t] s)

/-- SYNC (R81). -/
def execSync (s : State) : Out := .next (queueLine syncBytes s)

/-- START (R82). -/
def execStart (s : State) : Out := .next (queueLine [startByte] s)

/-- END (R82). -/
def execEndMark (s : State) : Out := .next (queueLine [endByte] s)

/-- HEADER (R83): DEST, SRC, TYPE, AUX, STAT, ODDCNT, GRP7CNT in this order. -/
def execHeader (dest src ptype aux stat oddcnt grp7cnt : Byte) (s : State) : Out :=
  .next (queueLine [dest, src, ptype, aux, stat, oddcnt, grp7cnt] s)

/-- COUNTS (R84): ODDCNT, then GRP7CNT. -/
def execCounts (odd groups : BitVec 7) (s : State) : Out := .next (queueLine [countByte odd, countByte groups] s)

/-- ODD_HEADER (R87). -/
def execOddHeader (msbs : BitVec 6) (s : State) : Out := .next (queueLine [oddHeaderByte msbs] s)

/-- GROUP_HEADER (R88). -/
def execGroupHeader (msbs : BitVec 7) (s : State) : Out := .next (queueLine [groupHeaderByte msbs] s)

/-- STUFFED_BYTE (R89). -/
def execStuffedByte (low : BitVec 7) (s : State) : Out := .next (queueLine [stuffedDataByte low] s)

/-- CHK1 (R89): checksum bits 6, 4, 2, 0. -/
def execChk1 (bits : BitVec 4) (s : State) : Out := .next (queueLine [checkByte bits] s)

/-- CHK2 (R89): checksum bits 7, 5, 3, 1. -/
def execChk2 (bits : BitVec 4) (s : State) : Out := .next (queueLine [checkByte bits] s)

end Sys2Proof.Machine
end

