-- ==== Sys2Proof/Machine/Script.lean ====
section
/-! DEFINITION. What the next step is (spec/00_scope.md R29, spec/70_reset_and_hazards.md R302, spec/30_encoding.md
R98, R99; notes/assumptions/2.md): the schedule's next entry, or the reference schedule when there is none. -/

namespace Sys2Proof.Machine

/-! ### Which agent steps are enabled -/

/-- What decoding the staged body gives, none when the buffer cannot be read. -/
def stagedResult (s : State) : Option DecodeResult :=
  match memRead s.params s.mb 0 s.mbLen with
  | .ok b => some (decodeBody s.params s.lastChk s.lastChkV b)
  | .error _ => none

/-- The staged body decodes. -/
def stagedGood (s : State) : Bool :=
  match stagedResult s with
  | some (.good _ _) => true
  | some (.bad _ _) => false
  | none => false

/-- The staged body is read and does not decode. -/
def stagedBad (s : State) : Bool :=
  match stagedResult s with
  | some (.good _ _) => false
  | some (.bad _ _) => true
  | none => false

/-- The staged body decodes to this data. -/
def stagedIs (data : List Byte) (s : State) : Bool :=
  match stagedResult s with
  | some (.good r _) => r.data == data
  | some (.bad _ _) => false
  | none => false

/-- The staged body locked, holds a header, and its opcode is peeked as INIT (42_bus_fsm.md R201). -/
def stagedInit (s : State) : Bool :=
  s.mbLock && decide (7 ≤ s.mbLen) &&
    match memRead s.params s.mb 0 s.mbLen with
    | .ok b => peekOpcode b == some 0x85#8
    | .error _ => false

/-- POLL can execute a request of this issuer now: POLL has a step, no transport step comes first, and the issuer has
no other request (42_bus_fsm.md R192). -/
def portEnabled (who : Issuer) (s : State) : Bool := pollHasStep s && s.trState == .idle && !waiting who s

/-- POLL's next step is an ENG step in this state (R192). -/
def engEnabled (e : Eng) (s : State) : Bool :=
  pollHasStep s && s.trState == .idle && !requestOffered s && s.eng == e

/-- POLL's next step is a transport step in this state (R192). -/
def trEnabled (t : TrState) (s : State) : Bool := pollHasStep s && s.trState == t

/-- A dispatch of the staged CMD is POLL's next step. -/
def commandEnabled (data : List Byte) (s : State) : Bool :=
  engEnabled .decode s && s.curKind == .cmd && stagedIs data s

/-- The agent of the operation has this step: the match column of the opcode table, with the scheduling of R192 and
R228. EDGE_DETECT is part of the TIMER step and never a step of its own (R223); HOST and TIMER always have a step. -/
def enabled (i : Instr) (s : State) : Bool :=
  match i with
  | .addDevice who _ _ => portEnabled who s
  | .removeDevice who _ => portEnabled who s
  | .setActive who _ _ => portEnabled who s
  | .setActiveSlot who _ _ => portEnabled who s
  | .deviceByAddr who _ => portEnabled who s
  | .encodePacket who _ _ _ _ _ => portEnabled who s
  | .decodePacket who _ _ => portEnabled who s
  | .sendReply who _ _ _ _ => portEnabled who s
  | .recvData who _ => portEnabled who s
  | .devDone who => portEnabled who s
  | .portReserved who _ => portEnabled who s
  | .pollDispatch => pollHasStep s
  | .eIdle => engEnabled .idle s
  | .eReset => engEnabled .reset s
  | .busReset => (engEnabled .idle s || engEnabled .enable s) && phaseClass s == .reset
  | .eEnable => engEnabled .enable s
  | .claim => engEnabled .enable s && phaseClass s == .enable && s.staged
  | .eClaimWait => engEnabled .claimWait s
  | .eDecode => engEnabled .decode s
  | .initAssign => engEnabled .decode s && s.curKind == .init && stagedGood s
  | .dispatchCmd => engEnabled .decode s && s.curKind == .cmd && stagedGood s
  | .dispatchIoerror => engEnabled .decode s && s.curKind == .cmd && stagedBad s
  | .eInitReply => engEnabled .initReply s
  | .eDevice => engEnabled .device s
  | .eFinish => engEnabled .finish s
  | .sWaitRise => trEnabled .sWaitRise s
  | .sWaitFall => trEnabled .sWaitFall s
  | .rWaitRise => trEnabled .rWaitRise s
  | .rWaitFall => trEnabled .rWaitFall s
  | .isrStart => isrCanStart s
  | .iWaitRise => s.isrState == .waitRise
  | .isrStage => s.isrState == .waitRise && reqLevel s
  | .edgeDetect => false
  | .timerTick => true
  | .phaseReset _ => true
  | .phaseEnable _ => true
  | .phaseIdle _ => true
  | .typeCommand => true
  | .typeStatus => true
  | .typeData => true
  | .typeReserved _ => true
  | .initCmd => engEnabled .enable s && phaseClass s == .enable && s.staged && stagedInit s
  | .cmdStatus80 ps => commandEnabled (0x80#8 :: ps) s
  | .cmdRead81 ps => commandEnabled (0x81#8 :: ps) s
  | .cmdWrite82 ps => commandEnabled (0x82#8 :: ps) s
  | .cmdControl84 ps => commandEnabled (0x84#8 :: ps) s
  | .cmdOpen86 ps => commandEnabled (0x86#8 :: ps) s
  | .cmdClose87 ps => commandEnabled (0x87#8 :: ps) s
  | .cmdRead88 ps => commandEnabled (0x88#8 :: ps) s
  | .cmdWrite89 ps => commandEnabled (0x89#8 :: ps) s
  | .cmdNone data => commandEnabled data s
  | .sync => true
  | .start => true
  | .endMark => true
  | .header _ _ _ _ _ _ _ => true
  | .counts _ _ => true
  | .oddHeader _ => true
  | .groupHeader _ => true
  | .stuffedByte _ => true
  | .chk1 _ => true
  | .chk2 _ => true

/-! ### The environment's actions -/

/-- HOST drives REQ (30_encoding.md R98). -/
def driveReq (v : Bool) (s : State) : State :=
  if s.params.reqIsPh0 then { s with phase := (s.phase &&& 0b1110#4) ||| (if v then 0b0001#4 else 0b0000#4) }
  else { s with reqPin := v }

/-- HOST reads the first `k` bits of TX_BITS (10_state.md R51). -/
def readTx (k : Nat) (s : State) : State := { s with txBits := s.txBits.drop k, txChecked := s.txChecked - k }

/-- An issuer offers a request; it has no step while an earlier one waits (42_bus_fsm.md R192). -/
def offer (who : Issuer) (r : Request) (s : State) : State :=
  if waiting who s then s
  else
    match who with
    | .app => { s with reqApp := some r }
    | .devlayer => { s with reqDev := some r }

/-- Power-on reset while the environment stands (70_reset_and_hazards.md R290): every register of 10_state.md R56 is
at its reset value, PREV_PHASE at the sampled phase; the pins, what HOST has queued, the bits it has not read, the
schedule and the sticky outcomes are the environment's or the model's own and stay (notes/assumptions/22.md). A round
of the reference schedule that the reset falls into is dropped, and a new round begins with a TIMER step: the spec is
silent, a DESIGN CHOICE (notes/assumptions/30.md). -/
def powerOnReset (s : State) : State :=
  { State.powerOn s.params s.phase s.reqPin with
    txBits := s.txBits, hostLine := s.hostLine, samples := s.samples, csrOut := s.csrOut, refusedOp := s.refusedOp,
    script := s.script, draws := s.draws, hostTimeouts := s.hostTimeouts, txChecked := s.txChecked,
    expectFailed := s.expectFailed }

/-- The condition holds (30_encoding.md R98). -/
def condHolds (c : Cond) (s : State) : Bool :=
  match c with
  | .ack v => s.ack == v
  | .eng e => s.eng == e
  | .dispValid v => s.dispValid == v

/-- EXPECT_TX: the bits emitted since the last check are `serialize(bytes)` (R98). -/
def expectTx (bytes : List Byte) (s : State) : State :=
  { s with txChecked := s.txBits.length,
           expectFailed := s.expectFailed || s.txBits.drop s.txChecked != serialize bytes }

/-! ### The pseudo-operations of the program syntax (30_encoding.md R99), as lists of entries -/

/-- `PHASE 0bPPPP` (R98). -/
def entryPhase (p : Phase) : Entry := .code .phase [p.setWidth 8]

/-- `HOST COMMAND [bytes]` (R99), with the tester's bound. -/
def hostCommand (bound : Nat) (bytes : List Byte) : List Entry :=
  [.runUntil (.ack false) bound, .line bytes, .req true, .runUntil (.ack true) bound, .req false]

/-- `HOST RESET` (R99), with the spec's default vectors. -/
def hostReset (bound : Nat) : List Entry :=
  [entryPhase 0b0101#4, .runUntil (.eng .reset) bound, entryPhase 0b0000#4]

/-- `HOST ENABLE` (R99). -/
def hostEnable : List Entry := [entryPhase 0b1010#4]

/-- `HOST RECEIVE` (R99). -/
def hostReceive (bound : Nat) : List Entry :=
  [.runUntil (.ack false) bound, .req true, .runUntil (.ack true) bound, .req false]

/-- A plain request line: offered, then awaited (R98). -/
def blockingRequest (who : Issuer) (r : Request) : List Entry := [.offer who r, .await who]

/-! ### The next step -/

/-- What the next step is: an operation on a state, or an action of the environment with its outcome. -/
inductive Fetched where
  | run (i : Instr) (s : State)
  | done (o : Out)

/-- The core's operation in step 3 of a round (R302): an ISR step if ISR can step, else a POLL step. -/
def coreOp (s : State) : Instr :=
  if s.isrState = .waitRise then .iWaitRise
  else if isrCanStart s then .isrStart
  else .pollDispatch

/-- The reference schedule's next agent step (R302): TIMER, then the core. -/
def reference (s : State) : Fetched :=
  match s.turn with
  | .timer => .run .timerTick { s with turn := .core }
  | .core => .run (coreOp s) { s with turn := .timer }

/-- An operation given by its code: it is decoded, and its agent takes the step if it has it; an agent without that
step takes none. -/
def fetchCode (f : Format) (bs : List Byte) (s : State) : Fetched :=
  match decode s.params f bs with
  | .error e => .done (.refused (.undecodable e))
  | .ok i => if enabled i s then .run i s else .done (.next s)

/-- The rounds or checks left after this agent step: one less when the core's step ends the round. -/
def lessAtCore (k : Nat) (s : State) : Nat :=
  match s.turn with
  | .timer => k
  | .core => k - 1

/-- What one entry of the schedule makes of the state `s`, in which the entries after it are the whole script. RUN UNTIL
tests its condition before its bound, so also in the round in which the bound has run out: a DESIGN CHOICE
(notes/assumptions/29.md). -/
def fetchEntry (e : Entry) (s : State) : Fetched :=
  match e with
  | .code f bs => fetchCode f bs s
  | .req v => .done (.next (driveReq v s))
  | .line bytes => .done (.next (queueLine bytes s))
  | .samples xs => .done (.next { s with samples := s.samples ++ xs })
  | .readTx k => .done (.next (readTx k s))
  | .offer who r => .done (.next (offer who r s))
  | .csrRead who addr width => .done (if waiting who s then .next s else csrRead addr width s)
  | .csrWrite who addr width v => .done (if waiting who s then .next s else csrWrite addr width v s)
  | .powerOn => .done (.next (powerOnReset s))
  | .run k => if k = 0 then .done (.next s) else reference { s with script := .run (lessAtCore k s) :: s.script }
  | .runUntil c b =>
    if s.turn = .timer ∧ condHolds c s = true then .done (.next s)
    else if s.turn = .timer ∧ b = 0 then .done (.next { s with hostTimeouts := s.hostTimeouts + 1 })
    else reference { s with script := .runUntil c (lessAtCore b s) :: s.script }
  | .await who =>
    if s.turn = .timer ∧ waiting who s = false then .done (.next s)
    else reference { s with script := .await who :: s.script }
  | .expectTx bytes => .done (.next (expectTx bytes s))

/-- What the next step is. -/
def fetch (s : State) : Fetched :=
  match s.script with
  | [] => reference s
  | e :: rest => fetchEntry e { s with script := rest }

/-! ### Placing one operation as the next step -/

/-- No agent stands before POLL: ISR idle with nothing pending, no transport operation, no request. -/
def clearForPoll (s : State) : State :=
  { s with isrState := .idle, irqPend := false, trState := .idle, reqApp := none, reqDev := none, busy := false }

/-- A command with this payload, staged. -/
def stagePayload (data : List Byte) (s : State) : State :=
  let body := (encodeRaw s.params 0 0x80#8 0 data).drop 7
  { clearForPoll s with staged := true, mb := writeBytes 0 body [], mbLen := body.length, mbLock := true }

/-- A CMD with this payload at its dispatch. -/
def stageDispatch (data : List Byte) (s : State) : State :=
  { stagePayload data s with eng := .decode, curKind := .cmd }

/-- The state in which the agent of the operation has this step, for the operations a bare word of the opcode table
stands for (notes/assumptions/1.md). -/
def prepare (i : Instr) (s : State) : State :=
  match i with
  | .addDevice _ _ _ => clearForPoll s
  | .removeDevice _ _ => clearForPoll s
  | .setActive _ _ _ => clearForPoll s
  | .setActiveSlot _ _ _ => clearForPoll s
  | .deviceByAddr _ _ => clearForPoll s
  | .encodePacket _ _ _ _ _ _ => clearForPoll s
  | .decodePacket _ _ _ => clearForPoll s
  | .sendReply _ _ _ _ _ => clearForPoll s
  | .recvData _ _ => clearForPoll s
  | .devDone _ => clearForPoll s
  | .portReserved _ _ => clearForPoll s
  | .pollDispatch => clearForPoll s
  | .eIdle => { clearForPoll s with eng := .idle }
  | .eReset => { clearForPoll s with eng := .reset }
  | .busReset => { clearForPoll s with eng := .idle, phase := s.params.resetSet.headD 0 }
  | .eEnable => { clearForPoll s with eng := .enable }
  | .claim => { stagePayload [] s with eng := .enable, phase := s.params.enableSet.headD 0 }
  | .eClaimWait => { clearForPoll s with eng := .claimWait }
  | .eDecode => { clearForPoll s with eng := .decode }
  | .initAssign => { stagePayload [0x85#8] s with eng := .decode, curKind := .init }
  | .dispatchCmd => stageDispatch [] s
  | .dispatchIoerror =>
    { clearForPoll s with eng := .decode, curKind := .cmd, staged := true, mb := [], mbLen := 0, mbLock := true }
  | .eInitReply => { clearForPoll s with eng := .initReply }
  | .eDevice => { clearForPoll s with eng := .device }
  | .eFinish => { clearForPoll s with eng := .finish }
  | .sWaitRise => { clearForPoll s with trState := .sWaitRise }
  | .sWaitFall => { clearForPoll s with trState := .sWaitFall }
  | .rWaitRise => { clearForPoll s with trState := .rWaitRise }
  | .rWaitFall => { clearForPoll s with trState := .rWaitFall }
  | .isrStart => { clearForPoll s with irqPend := true }
  | .iWaitRise => { clearForPoll s with isrState := .waitRise }
  | .isrStage =>
    { clearForPoll s with isrState := .waitRise, reqPin := true, phase := s.phase ||| 0b0001#4 }
  | .edgeDetect => s
  | .timerTick => s
  | .phaseReset _ => s
  | .phaseEnable _ => s
  | .phaseIdle _ => s
  | .typeCommand => s
  | .typeStatus => s
  | .typeData => s
  | .typeReserved _ => s
  | .initCmd => { stagePayload [0x85#8] s with eng := .enable, phase := s.params.enableSet.headD 0 }
  | .cmdStatus80 ps => stageDispatch (0x80#8 :: ps) s
  | .cmdRead81 ps => stageDispatch (0x81#8 :: ps) s
  | .cmdWrite82 ps => stageDispatch (0x82#8 :: ps) s
  | .cmdControl84 ps => stageDispatch (0x84#8 :: ps) s
  | .cmdOpen86 ps => stageDispatch (0x86#8 :: ps) s
  | .cmdClose87 ps => stageDispatch (0x87#8 :: ps) s
  | .cmdRead88 ps => stageDispatch (0x88#8 :: ps) s
  | .cmdWrite89 ps => stageDispatch (0x89#8 :: ps) s
  | .cmdNone data => stageDispatch data s
  | .sync => s
  | .start => s
  | .endMark => s
  | .header _ _ _ _ _ _ _ => s
  | .counts _ _ => s
  | .oddHeader _ => s
  | .groupHeader _ => s
  | .stuffedByte _ => s
  | .chk1 _ => s
  | .chk2 _ => s

end Sys2Proof.Machine
end

