-- ==== Sys2Proof/Machine/Dispatch.lean ====
section
/-! DEFINITION. The dispatch: one arm per operation of spec/opcode_table.json. -/

namespace Sys2Proof.Machine

/-- The meaning of an operation. -/
def exec (i : Instr) (s : State) : Host.Outcome State Fault Refusal :=
  match i with
  | .addDevice who slot dtype => Sys2Proof.Machine.execAddDevice who slot dtype s
  | .removeDevice who slot => Sys2Proof.Machine.execRemoveDevice who slot s
  | .setActive who addr v => Sys2Proof.Machine.execSetActive who addr v s
  | .setActiveSlot who slot v => Sys2Proof.Machine.execSetActiveSlot who slot v s
  | .deviceByAddr who addr => Sys2Proof.Machine.execDeviceByAddr who addr s
  | .encodePacket who sourceId packetType status n data => Sys2Proof.Machine.execEncodePacket who sourceId packetType status n data s
  | .decodePacket who n data => Sys2Proof.Machine.execDecodePacket who n data s
  | .sendReply who packetType status n data => Sys2Proof.Machine.execSendReply who packetType status n data s
  | .recvData who n => Sys2Proof.Machine.execRecvData who n s
  | .devDone who => Sys2Proof.Machine.execDevDone who s
  | .portReserved who op => Sys2Proof.Machine.execPortReserved who op s
  | .pollDispatch => Sys2Proof.Machine.execPollDispatch s
  | .eIdle => Sys2Proof.Machine.execEIdle s
  | .eReset => Sys2Proof.Machine.execEReset s
  | .busReset => Sys2Proof.Machine.execBusReset s
  | .eEnable => Sys2Proof.Machine.execEEnable s
  | .claim => Sys2Proof.Machine.execClaim s
  | .eClaimWait => Sys2Proof.Machine.execEClaimWait s
  | .eDecode => Sys2Proof.Machine.execEDecode s
  | .initAssign => Sys2Proof.Machine.execInitAssign s
  | .dispatchCmd => Sys2Proof.Machine.execDispatchCmd s
  | .dispatchIoerror => Sys2Proof.Machine.execDispatchIoerror s
  | .eInitReply => Sys2Proof.Machine.execEInitReply s
  | .eDevice => Sys2Proof.Machine.execEDevice s
  | .eFinish => Sys2Proof.Machine.execEFinish s
  | .sWaitRise => Sys2Proof.Machine.execSWaitRise s
  | .sWaitFall => Sys2Proof.Machine.execSWaitFall s
  | .rWaitRise => Sys2Proof.Machine.execRWaitRise s
  | .rWaitFall => Sys2Proof.Machine.execRWaitFall s
  | .isrStart => Sys2Proof.Machine.execIsrStart s
  | .iWaitRise => Sys2Proof.Machine.execIWaitRise s
  | .isrStage => Sys2Proof.Machine.execIsrStage s
  | .edgeDetect => Sys2Proof.Machine.execEdgeDetect s
  | .timerTick => Sys2Proof.Machine.execTimerTick s
  | .phaseReset p => Sys2Proof.Machine.execPhaseReset p s
  | .phaseEnable p => Sys2Proof.Machine.execPhaseEnable p s
  | .phaseIdle p => Sys2Proof.Machine.execPhaseIdle p s
  | .typeCommand => Sys2Proof.Machine.execTypeCommand s
  | .typeStatus => Sys2Proof.Machine.execTypeStatus s
  | .typeData => Sys2Proof.Machine.execTypeData s
  | .typeReserved t => Sys2Proof.Machine.execTypeReserved t s
  | .initCmd => Sys2Proof.Machine.execInitCmd s
  | .cmdStatus80 params => Sys2Proof.Machine.execCmdStatus80 params s
  | .cmdRead81 params => Sys2Proof.Machine.execCmdRead81 params s
  | .cmdWrite82 params => Sys2Proof.Machine.execCmdWrite82 params s
  | .cmdControl84 params => Sys2Proof.Machine.execCmdControl84 params s
  | .cmdOpen86 params => Sys2Proof.Machine.execCmdOpen86 params s
  | .cmdClose87 params => Sys2Proof.Machine.execCmdClose87 params s
  | .cmdRead88 params => Sys2Proof.Machine.execCmdRead88 params s
  | .cmdWrite89 params => Sys2Proof.Machine.execCmdWrite89 params s
  | .cmdNone data => Sys2Proof.Machine.execCmdNone data s
  | .sync => Sys2Proof.Machine.execSync s
  | .start => Sys2Proof.Machine.execStart s
  | .endMark => Sys2Proof.Machine.execEndMark s
  | .header dest src ptype aux stat oddcnt grp7cnt => Sys2Proof.Machine.execHeader dest src ptype aux stat oddcnt grp7cnt s
  | .counts numOdd numGroups => Sys2Proof.Machine.execCounts numOdd numGroups s
  | .oddHeader msbs => Sys2Proof.Machine.execOddHeader msbs s
  | .groupHeader msbs => Sys2Proof.Machine.execGroupHeader msbs s
  | .stuffedByte low => Sys2Proof.Machine.execStuffedByte low s
  | .chk1 bits => Sys2Proof.Machine.execChk1 bits s
  | .chk2 bits => Sys2Proof.Machine.execChk2 bits s

end Sys2Proof.Machine
end

