-- ==== Sys2Proof/Machine/Step.lean ====
section
/-! DEFINITION. One step of the machine: one agent step or one action of the environment (spec/00_scope.md R29,
spec/20_memory.md R67). -/

namespace Sys2Proof.Machine

/-- One step: the fetched operation is executed, or the environment's action is done. -/
def step (s : State) : Host.Outcome State Fault Refusal :=
  match fetch s with
  | .run i s' => exec i s'
  | .done o => o

/-- `s` with a word of the opcode table as the schedule's next entry, and the state its agent needs to have that step:
the machine fetches at no program counter (10_state.md R31; notes/assumptions/1.md, 2.md). -/
def State.withFetchWord (s : State) (nbits w : Nat) : State :=
  match decodeTableWord nbits w with
  | none => s
  | some i => { prepare i s with script := .code (tableFormat nbits w) (tableBytes nbits w) :: s.script }

end Sys2Proof.Machine
end

