-- ==== Sys2Proof/Safety.lean ====
section
/-! DEFINITION. What a safe run is: the invariants the rules of spec/ promise of every step, the constraints on the
parameters, and the device layer's contract. Claims are stated in these terms. -/

namespace Sys2Proof.Machine

/-! ### The parameters -/

/-- The constraints of spec/00_scope.md on an instantiation: a packet of no payload fits a buffer (R8, R116), `OS ≥ 2`
(R10), the fall timeout of a send is the shorter (R13), every timeout is below 2^31 (R24), 1 to 128 slots (R16,
10_state.md R54), disjoint phase sets (R17), and the quirk range (R20). -/
abbrev ParamsOk (P : Params) : Prop :=
  17 ≤ P.bufLen ∧ 2 ≤ P.os ∧ P.tSendReqFall < P.tSendReqRise
    ∧ P.tSendReqRise.toNat < 2 ^ 31 ∧ P.tRecvReqRise.toNat < 2 ^ 31 ∧ P.tRecvReqFall.toNat < 2 ^ 31
    ∧ 1 ≤ P.maxDevices ∧ P.maxDevices ≤ 128
    ∧ (P.resetSet.all fun p => !P.enableSet.contains p) = true
    ∧ P.quirkLenMin ≤ P.quirkLenMax ∧ P.quirkLenMax ≤ maxPayload P

/-! ### What an operation answers -/

/-- The outcome is the state `t` with a reply delivered to `who` that has the property `p`: the fields of the reply the
operation's rule lists (30_encoding.md R93). -/
def Answers (who : Issuer) (p : Reply → Prop) (o : Out) (t : State) : Prop :=
  ∃ r, p r ∧ o = .next (deliver who r t)

/-- The outcome is a refusal on the port: the reply carries RC = ERR_BADOP and the state is unchanged but for the
model's refusal record (30_encoding.md R94, 60_exceptions.md R275). -/
def Refuses (who : Issuer) (o : Out) (s : State) : Prop :=
  Answers who (fun r => r.rc = badopCode) o { s with refusedOp := true }

/-- The outcome is the end of a transport operation in the state `t`: when DEVLAYER asked for the operation (`busy`),
it gets a reply with the property `p`; a SEND of the engine's own has none (41_transport.md R171, R172). -/
def Ended (p : Reply → Prop) (o : Out) (t : State) : Prop :=
  if t.busy = true then ∃ r, p r ∧ o = .next { t with busy := false, replyDev := some r } else o = .next t

/-- The state after a structurally valid decode that read the checksum `rx` (40_codec.md R131); unchanged after a
structural error (R123). -/
def afterDecode (rx : Option Byte) (s : State) : State :=
  match rx with
  | some c => { s with lastChk := c, lastChkV := true }
  | none => s

/-- The dispatch of a decoded CMD with the class `c`, and nothing else (42_bus_fsm.md R215, 40_codec.md R131). -/
def dispatched (rec : DecRec) (rx : Byte) (c : Cap) (s : State) : Out :=
  .next { s with lastChk := rx, lastChkV := true, curDec := rec, dispSlot := s.curSlot, dispKind := .cmd, dispCap := c,
                 dispCmd := rec, dispValid := true, eng := .device }

/-! ### Byte buffers -/

/-- A buffer with its LEN register: canonical, inside BUF_LEN, and every byte of the valid part `[0, LEN)` holds a
value (20_memory.md R62, R63, R64). -/
abbrev BufferOk (bufLen : Nat) (m : Memory) (len : Nat) : Prop :=
  m.wf ∧ (∀ c ∈ m, c.1 < bufLen) ∧ len ≤ bufLen ∧ ∀ i, i < len → (readByte m i).isSome = true

/-- The three buffers (20_memory.md R57). -/
abbrev BuffersOk (s : State) : Prop :=
  BufferOk s.params.bufLen s.txBuf s.txLen ∧ BufferOk s.params.bufLen s.rxBuf s.rxLen
    ∧ BufferOk s.params.bufLen s.mb s.mbLen

/-- A step does not end in a buffer fault (60_exceptions.md R275: these "never occur in a run that follows the
rules"). -/
def NoBufferFault (o : Out) : Prop := o ≠ .fault .unwritten ∧ o ≠ .fault .bufRange

/-! ### The device table and the chain -/

/-- Every slot is in CHAIN exactly once if it is present, and not at all if it is absent; an absent slot is inactive
and unaddressed (10_state.md R42). -/
abbrev ChainOk (s : State) : Prop :=
  s.dev.length = s.params.maxDevices ∧ s.chain.Nodup
    ∧ (∀ i ∈ s.chain, i < s.params.maxDevices ∧ (devAt s i).present = true)
    ∧ (∀ i, i < s.params.maxDevices → (devAt s i).present = true → i ∈ s.chain)
    ∧ (∀ i, i < s.params.maxDevices → (devAt s i).present = false →
        (devAt s i).active = false ∧ (devAt s i).addr = 0)

/-- A command is in flight: ENG is past the claim and before E_FINISH (43_registry.md R245). -/
def inFlight : Eng → Bool
  | .idle => false
  | .reset => false
  | .enable => false
  | .claimWait => true
  | .decode => true
  | .initReply => true
  | .device => true
  | .finish => false

/-- `ChainOk`, and the slots a command in flight names are in the chain, so present (43_registry.md R245: "a command's
CUR_SLOT and DISP_SLOT always name a present device"). -/
abbrev RegistryOk (s : State) : Prop :=
  ChainOk s ∧ (inFlight s.eng = true → s.curSlot ∈ s.chain) ∧ (s.eng = .device → s.dispSlot ∈ s.chain)

/-! ### The engine, the handoff and the handshake -/

/-- What the engine's state says of the other registers: without a staged command no command is handled
(42_bus_fsm.md R224); ISR waits only with an empty mailbox and outside the critical section (20_memory.md R71, R77);
a transport operation runs only under E_INIT_REPLY or E_DEVICE (41_transport.md R150); ACK is released when no
command is handled (10_state.md R33, 42_bus_fsm.md R216), asserted from the claim to the decode (R207), released in a
REQ-rise wait and asserted in a REQ-fall wait (41_transport.md R154, R158, R160, R162); CUR_KIND and DISP_VALID follow
ENG (42_bus_fsm.md R201, R215, R216, R217). -/
abbrev HandoffOk (s : State) : Prop :=
  (s.staged = false → noCommand s.eng = true)
    ∧ (s.isrState = .waitRise → s.staged = false ∧ s.trState = .idle)
    ∧ (s.trState ≠ .idle → s.eng = .initReply ∨ s.eng = .device)
    ∧ (s.busy = true → s.trState ≠ .idle ∧ s.eng = .device)
    ∧ (s.trState ≠ .idle → s.eng = .device → s.busy = true)
    ∧ (noCommand s.eng = true → s.ack = false ∧ s.curKind = .none)
    ∧ (s.eng = .claimWait ∨ s.eng = .decode → s.ack = true ∧ s.curKind ≠ .none)
    ∧ (s.eng = .initReply → s.curKind = .init) ∧ (s.eng = .device → s.curKind = .cmd)
    ∧ (s.trState = .sWaitRise ∨ s.trState = .rWaitRise → s.ack = false)
    ∧ (s.trState = .sWaitFall ∨ s.trState = .rWaitFall → s.ack = true)
    ∧ (s.dispValid = true ↔ s.eng = .device)

/-! ### The error record -/

/-- LAST_ERR holds 0 or a code `raise` records, and ERR_FLAGS bits 0, 10, 14 and 15 are 0 (60_exceptions.md R260,
R264). -/
abbrev ErrorsOk (s : State) : Prop :=
  s.lastErr.toNat ≤ 13 ∧ s.lastErr ≠ badopCode ∧ s.errFlags &&& 0xC401#16 = 0

/-- The error record did not change, or exactly one code was recorded (60_exceptions.md R264, R265). -/
def AtMostOneError (s t : State) : Prop :=
  (t.lastErr = s.lastErr ∧ t.errFlags = s.errFlags)
    ∨ ∃ e : Err, t.lastErr = e.code ∧ t.errFlags = s.errFlags ||| (1#16 <<< e.num)

/-! ### Who writes what -/

/-- The registers only POLL-context steps write are as before (20_memory.md R72, 10_state.md R33, R36, R37, R38). -/
def SamePollState (s t : State) : Prop :=
  t.dev = s.dev ∧ t.chain = s.chain ∧ t.eng = s.eng ∧ t.ack = s.ack
    ∧ t.curKind = s.curKind ∧ t.curSlot = s.curSlot ∧ t.curDec = s.curDec ∧ t.curStatus = s.curStatus
    ∧ t.wT0 = s.wT0 ∧ t.wLimit = s.wLimit
    ∧ t.trState = s.trState ∧ t.trT0 = s.trT0 ∧ t.trLimit = s.trLimit ∧ t.trResult = s.trResult
    ∧ t.txBuf = s.txBuf ∧ t.txLen = s.txLen
    ∧ t.rxBuf = s.rxBuf ∧ t.rxLen = s.rxLen ∧ t.rxLock = s.rxLock ∧ t.rxExpect = s.rxExpect
    ∧ t.dispValid = s.dispValid ∧ t.dispSlot = s.dispSlot ∧ t.dispKind = s.dispKind ∧ t.dispCap = s.dispCap
    ∧ t.dispCmd = s.dispCmd

/-- The mailbox is as before (10_state.md R35). -/
def SameMailbox (s t : State) : Prop := t.mb = s.mb ∧ t.mbLen = s.mbLen ∧ t.mbLock = s.mbLock

/-- The schedule's next entry is a power-on reset, which is no step of an agent (70_reset_and_hazards.md R290). -/
def powerOnNext (s : State) : Bool := s.script.head?.any (· == .powerOn)

/-- The schedule's next entry is a CSR write (10_state.md R55). -/
def csrWriteNext (s : State) : Bool :=
  s.script.head?.any fun e =>
    match e with
    | .csrWrite _ _ _ _ => true
    | .code _ _ | .req _ | .line _ | .samples _ | .readTx _ | .offer _ _ | .csrRead _ _ _ | .powerOn | .run _
    | .runUntil _ _ | .await _ | .expectTx _ => false

/-- The schedule's next entry is HOST reading emitted bits (10_state.md R51). -/
def readTxNext (s : State) : Bool :=
  s.script.head?.any fun e =>
    match e with
    | .readTx _ => true
    | .code _ _ | .req _ | .line _ | .samples _ | .csrWrite _ _ _ _ | .offer _ _ | .csrRead _ _ _ | .powerOn | .run _
    | .runUntil _ _ | .await _ | .expectTx _ => false

/-! ### The idle bus -/

/-- The phase vector when it classifies Idle, none otherwise. -/
def ifIdle (P : Params) (p : Phase) : Option Phase := if classify P p = .idle then some p else none

/-- The phase vector an entry of the schedule leaves on the lines, none when it is not an entry of an idle bus: HOST
drives the phase lines or REQ so that the vector classifies Idle, an agent takes its step, or rounds of the reference
schedule go on. Requests, line data, CSR accesses and power-on resets are none of these. -/
def idleAfter (P : Params) (p : Phase) : Entry → Option Phase
  | .code .phase [b] => if b &&& 0xF0#8 = 0#8 then ifIdle P (b.setWidth 4) else none
  | .code f bs =>
    if (f, bs) ∈ [(Format.timerStep, [0x00#8]), (.pollStep, []), (.isrStep, [0x00#8])] then some p else none
  | .req v =>
    ifIdle P (if P.reqIsPh0 then (p &&& 0b1110#4) ||| (if v then 0b0001#4 else 0b0000#4) else p)
  | .run _ | .runUntil _ _ | .await _ => some p
  | .line _ | .samples _ | .readTx _ | .offer _ _ | .csrRead _ _ _ | .csrWrite _ _ _ _ | .powerOn | .expectTx _ => none

/-- Every phase vector the schedule leaves on the lines from `p` on classifies Idle, and no request is made
(42_bus_fsm.md R200). -/
def quietFrom (P : Params) : Phase → List Entry → Bool
  | _, [] => true
  | p, e :: rest =>
    match idleAfter P p e with
    | some q => quietFrom P q rest
    | none => false

/-- The premises of the idle invariant (42_bus_fsm.md R200): ENG is E_IDLE or E_RESET, the phase classifies Idle and so
does every vector the schedule drives, no request is offered or scheduled; and, which R200 takes for granted, no
transport operation and no prefetch is under way. -/
def IdleBus (s : State) : Prop :=
  (s.eng = .idle ∨ s.eng = .reset) ∧ phaseClass s = .idle ∧ s.reqApp = none ∧ s.reqDev = none
    ∧ quietFrom s.params s.phase s.script = true ∧ s.trState = .idle ∧ s.isrState = .idle

/-! ### The layout of a body, by byte positions

These say what the rules say of single bytes and bits; the codec's functions are written over sections. `p0` and the
place of the trailer are 30_encoding.md R90's. -/

/-- `p0`: where the first group of a body starts (30_encoding.md R90). -/
def firstGroup (odd : Nat) : Nat := if odd = 0 then 7 else 8 + odd

/-- The data of a body with the given counts (40_codec.md R124): each data byte takes bits 6..0 from its stored byte and
its MSB from bit 6-k of the section's header byte. -/
def BodyData (b : List Byte) (odd groups : Nat) (data : List Byte) : Prop :=
  data.length = odd + 7 * groups
    ∧ (∀ k, k < odd →
        data[k]? = some ((byteAt b (8 + k) &&& 0x7F#8) ||| ((byteAt b 7 <<< (k + 1)) &&& 0x80#8)))
    ∧ ∀ g k, g < groups → k < 7 →
        data[odd + 7 * g + k]? = some ((byteAt b (firstGroup odd + 8 * g + 1 + k) &&& 0x7F#8)
          ||| ((byteAt b (firstGroup odd + 8 * g) <<< (k + 1)) &&& 0x80#8))

/-- The strict framing checks (40_codec.md R127): bit 7 of every byte before the trailer, the unused bits of the odd
header, the fixed bits of the trailer bytes, and the end byte. -/
def WellFramed (b : List Byte) (odd groups : Nat) : Prop :=
  (∀ i, i < firstGroup odd + 8 * groups → (byteAt b i).getLsbD 7 = true)
    ∧ (odd ≠ 0 → byteAt b 7 &&& (0x7F#8 >>> odd) = 0#8)
    ∧ byteAt b (firstGroup odd + 8 * groups) &&& 0xAA#8 = 0xAA#8
    ∧ byteAt b (firstGroup odd + 8 * groups + 1) &&& 0xAA#8 = 0xAA#8
    ∧ byteAt b (firstGroup odd + 8 * groups + 2) = 0xC8#8

/-- The verdict on a body of valid structure (40_codec.md R120, R126, R128, R131): ERR_CHECKSUM unless the checksum
matches or the shim excuses it, then ERR_FRAMING unless the framing holds where it is checked, else the record. -/
def CheckedVerdict (P : Params) (lastChk : Byte) (lastChkV : Bool) (b : List Byte) (odd groups : Nat)
    (data : List Byte) (rx : Byte) (d : DecodeResult) : Prop :=
  (rx = (byteAt b (firstGroup odd + 8 * groups) &&& 0x55#8)
      ||| ((byteAt b (firstGroup odd + 8 * groups + 1) &&& 0x55#8) <<< 1))
    ∧ if xorBytes data ^^^ xorBytes (b.take 7) = rx
          ∨ (P.quirkEnable = true ∧ lastChkV = true ∧ rx = lastChk
            ∧ P.quirkLenMin ≤ data.length ∧ data.length ≤ P.quirkLenMax) then
        (P.strictFraming = true ∧ ¬WellFramed b odd groups → d = .bad .framing (some rx))
        ∧ (P.strictFraming = false ∨ WellFramed b odd groups →
            d = .good { dest := byteAt b 0, src := byteAt b 1, ptype := byteAt b 2, aux := byteAt b 3,
                        stat := byteAt b 4, data := data } rx)
      else d = .bad .checksum (some rx)

/-- What decode answers on the body `b` (40_codec.md R121 to R131): the first structural error in the order of R265, or
the verdict on its data. -/
def Verdict (P : Params) (lastChk : Byte) (lastChkV : Bool) (b : List Byte) (d : DecodeResult) : Prop :=
  (fun odd groups : Nat =>
    if b.length < 7 then d = .bad .trunc none
    else if 6 < odd then d = .bad .oddcnt none
    else if maxPayload P < odd + 7 * groups then d = .bad .length none
    else if b.length < firstGroup odd + 8 * groups + 3 then d = .bad .trunc none
    else ∃ data rx, BodyData b odd groups data ∧ CheckedVerdict P lastChk lastChkV b odd groups data rx d)
  (byteAt b 5 &&& 0x7F#8).toNat (byteAt b 6 &&& 0x7F#8).toNat

/-- A section of `k` data bytes from index `i` of the data, its header byte at index `h` of the body (40_codec.md R112,
R113): bit 7 of the header is set, bit 6-j is the MSB of data byte j, the bits below are 0, and the data bytes follow
with bit 7 set. -/
def SectionAt (body data : List Byte) (h i k : Nat) : Prop :=
  (byteAt body h).getLsbD 7 = true
    ∧ (∀ j, j < 7 → (byteAt body h).getLsbD (6 - j) = (decide (j < k) && (byteAt data (i + j)).getLsbD 7))
    ∧ ∀ j, j < k → body[h + 1 + j]? = some (byteAt data (i + j) ||| 0x80#8)

/-! ### The line -/

/-- The line a host sends a raw packet on: 8 idle cells, then the bytes, as the reference encoder makes them
(30_encoding.md R99, 41_transport.md R170). -/
def hostSamples (P : Params) (raw : List Byte) (n : Nat) : List Bool := lineSamples (serialize raw) P.os (8 * P.os) n

/-- Bit `k` of the body is flipped (40_codec.md R136). -/
def flipBit (b : List Byte) (k : Nat) : List Byte :=
  b.set (k / 8) (byteAt b (k / 8) ^^^ (1#8 <<< (k % 8)))

/-! ### The device layer's contract -/

/-- The reply the device layer owes to a dispatch of capability NONE (42_bus_fsm.md R220): a status reply carrying
BADCMD_CODE with no data; DEV_DONE follows it. -/
def badCommandReply (P : Params) : Request :=
  { op := 0x20#8, a := 0x81#8, b := P.badcmdCode, c := 0, n := 0, data := [] }

/-- The request that ends a dispatch (42_bus_fsm.md R217). -/
def devDoneRequest : Request := { op := 0x2F#8, a := 0, b := 0, c := 0, n := 0, data := [] }

/-- The device layer may issue SEND_REPLY again for one reply at most SEND_RETRY_MAX times (41_transport.md R173,
00_scope.md R15). -/
def RetriesAllowed (P : Params) (again : Nat) : Prop := again ≤ P.sendRetryMax

/-- The model outcome "stuck DEVLAYER" (60_exceptions.md R275, 70_reset_and_hazards.md R304): from some step on the
run stays in E_DEVICE, because no DEV_DONE is ever issued. -/
def StuckDevlayer (run : Nat → State) : Prop := ∃ k, ∀ n, k ≤ n → (run n).eng = .device

/-- The run is quiescent (70_reset_and_hazards.md R302). -/
def quiescent (s : State) : Bool :=
  s.eng == .idle && s.trState == .idle && s.isrState == .idle && !s.irqPend && !requestOffered s && s.script == []

/-! ### INIT sweeps -/

/-- What one INIT cycle does to the registry (42_bus_fsm.md R205, R213): the target takes the address, and the reply
status is given; none when there is no target. -/
def initCycle (dest : Byte) (s : State) : Option (Byte × State) :=
  (initTarget s).map fun t =>
    (if otherUnaddressed t s then 0x00#8 else 0xFF#8, setDev t { devAt s t with addr := dest } s)

/-- A sweep of INIT cycles: the statuses, and the state after them (42_bus_fsm.md R222). -/
def initSweep : List Byte → State → Option (List Byte × State)
  | [], s => some ([], s)
  | d :: ds, s =>
    match initCycle d s with
    | none => none
    | some (st, s') => (initSweep ds s').map fun r => (st :: r.1, r.2)

end Sys2Proof.Machine
end

