-- ==== Sys2Proof/Certificates/Slice0/Obligations.lean ====
section
/-! DEFINITION. The statements for the provers. Each docstring names the rules of spec/ the statement formalises. In a
per-operation statement the next state is written out as `{ s with … }`, so every register, buffer and pin that is not
named there is unchanged. -/

open Sys2Proof Sys2Proof.Machine

/-! ### The operation port -/

/-- ADD_DEVICE (R240): from APP, with TR_IDLE, no command in flight and a slot of the table, an absent slot gets a new
inactive, unaddressed device and goes to the front of CHAIN, and a present one is ERR_SLOT_BUSY; every other request is
refused. -/
def Obligations.AddDeviceRegistersSlot : Prop :=
  ∀ (slot dtype : Byte) (s : State),
    (if s.trState = .idle ∧ (s.eng = .idle ∨ s.eng = .reset ∨ s.eng = .enable) ∧ slot.toNat < s.params.maxDevices then
      if (devAt s slot.toNat).present = true then
        Answers .app (fun r => r.rc = 11#8) (exec (.addDevice .app slot dtype) s) (raise .slotBusy s)
      else
        Answers .app (fun r => r.rc = 0#8) (exec (.addDevice .app slot dtype) s)
          { s with dev := s.dev.set slot.toNat { present := true, active := false, addr := 0#8, dtype := dtype },
                   chain := slot.toNat :: s.chain }
    else Refuses .app (exec (.addDevice .app slot dtype) s) s)
    ∧ Refuses .devlayer (exec (.addDevice .devlayer slot dtype) s) s

/-- REMOVE_DEVICE (R241): a present slot is unlinked and emptied, an absent one is ERR_SLOT_EMPTY; admitted as
ADD_DEVICE. -/
def Obligations.RemoveDeviceUnlinksSlot : Prop :=
  ∀ (slot : Byte) (s : State),
    (if s.trState = .idle ∧ (s.eng = .idle ∨ s.eng = .reset ∨ s.eng = .enable) ∧ slot.toNat < s.params.maxDevices then
      if (devAt s slot.toNat).present = true then
        Answers .app (fun r => r.rc = 0#8) (exec (.removeDevice .app slot) s)
          { s with dev := s.dev.set slot.toNat { present := false, active := false, addr := 0#8, dtype := 0#8 },
                   chain := s.chain.filter (fun j => j != slot.toNat) }
      else Answers .app (fun r => r.rc = 12#8) (exec (.removeDevice .app slot) s) (raise .slotEmpty s)
    else Refuses .app (exec (.removeDevice .app slot) s) s)
    ∧ Refuses .devlayer (exec (.removeDevice .devlayer slot) s) s

/-- SET_ACTIVE (R242): the first slot in CHAIN order that holds the non-zero address gets ACTIVE = v and keeps its
other fields; with none it is ERR_NO_DEVICE; APP with no command in flight, or DEVLAYER during E_DEVICE, both with
TR_IDLE. That DEVLAYER's request is served under an IOERROR dispatch too, where R219 lets DEVLAYER issue only DEV_DONE,
ENCODE and DECODE, is the model's choice (notes/assumptions/9.md). -/
def Obligations.SetActiveByAddress : Prop :=
  ∀ (who : Issuer) (addr v : Byte) (s : State),
    if s.trState = .idle ∧ v.toNat ≤ 1
        ∧ ((who = .app ∧ (s.eng = .idle ∨ s.eng = .reset ∨ s.eng = .enable)) ∨ (who = .devlayer ∧ s.eng = .device)) then
      match if addr = 0#8 then none else s.chain.find? (fun i => (devAt s i).addr == addr) with
      | some i =>
        Answers who (fun r => r.rc = 0#8) (exec (.setActive who addr v) s)
          { s with dev := s.dev.set i { devAt s i with active := v == 1#8 } }
      | none => Answers who (fun r => r.rc = 13#8) (exec (.setActive who addr v) s) (raise .noDevice s)
    else Refuses who (exec (.setActive who addr v) s) s

/-- SET_ACTIVE_SLOT (R243): a present slot gets ACTIVE = v, ADDR is never touched, an absent slot is ERR_SLOT_EMPTY;
admitted as SET_ACTIVE, and, as there, under an IOERROR dispatch too by the model's choice (notes/assumptions/9.md). -/
def Obligations.SetActiveBySlot : Prop :=
  ∀ (who : Issuer) (slot v : Byte) (s : State),
    if s.trState = .idle ∧ v.toNat ≤ 1 ∧ slot.toNat < s.params.maxDevices
        ∧ ((who = .app ∧ (s.eng = .idle ∨ s.eng = .reset ∨ s.eng = .enable)) ∨ (who = .devlayer ∧ s.eng = .device)) then
      if (devAt s slot.toNat).present = true then
        Answers who (fun r => r.rc = 0#8) (exec (.setActiveSlot who slot v) s)
          { s with dev := s.dev.set slot.toNat { devAt s slot.toNat with active := v == 1#8 } }
      else Answers who (fun r => r.rc = 12#8) (exec (.setActiveSlot who slot v) s) (raise .slotEmpty s)
    else Refuses who (exec (.setActiveSlot who slot v) s) s

/-- DEVICE_BY_ADDR (R244): no state changes; R0 is the first slot in CHAIN order that holds the address, active or not,
and 0xFF when there is none or the address is 0x00; from either issuer whenever TR_STATE is TR_IDLE. That the lookup is
served under an IOERROR dispatch (notes/assumptions/9.md) and that R0 holds the low 8 bits of a slot number above 255
(notes/assumptions/23.md) are the model's choices. -/
def Obligations.DeviceByAddrLooksUp : Prop :=
  ∀ (who : Issuer) (addr : Byte) (s : State),
    if s.trState = .idle then
      Answers who
        (fun r => r.rc = 0#8 ∧ r.r0 = some (
          match if addr = 0#8 then none else s.chain.find? (fun i => (devAt s i).addr == addr) with
          | some i => BitVec.ofNat 8 i
          | none => 0xFF#8))
        (exec (.deviceByAddr who addr) s) s
    else Refuses who (exec (.deviceByAddr who addr) s) s

/-- ENCODE (R118, R117): the reply carries the packet `SYNC ++ [0xC3] ++ header ++ sections ++ trailer` of R111 to R116
and no state is written; above MAX_PAYLOAD it is ERR_PARAM with RN = 0. -/
def Obligations.EncodeRepliesPacket : Prop :=
  ∀ (who : Issuer) (src ptype status : Byte) (n : BitVec 16) (data : List Byte) (s : State), data.length = n.toNat →
    if n.toNat ≤ maxPayload s.params then
      Answers who
        (fun r => r.rc = 0#8 ∧ r.rn = some (BitVec.ofNat 16 (packetLen data.length))
          ∧ r.rdata = some ([0xFF#8, 0x3F#8, 0xCF#8, 0xF3#8, 0xFC#8, 0xFF#8, 0xC3#8]
              ++ headerBytes s.params src ptype status data.length ++ stuff data
              ++ [(xorBytes data ^^^ xorBytes (headerBytes s.params src ptype status data.length)) ||| 0xAA#8,
                  ((xorBytes data ^^^ xorBytes (headerBytes s.params src ptype status data.length)) >>> 1) ||| 0xAA#8,
                  0xC8#8]))
        (exec (.encodePacket who src ptype status n data) s) s
    else
      Answers who (fun r => r.rc = 9#8 ∧ r.rn = some 0#16) (exec (.encodePacket who src ptype status n data) s)
        (raise .param s)

/-- DECODE (R132, R131, R123): RC is 0, R0 is the verdict, the data comes with a good verdict only; a failure is
recorded; LAST_CHK and LAST_CHK_V are written by every structurally valid decode; N above BUF_LEN is refused. The verdict
is the rules' own (R121, R122, R124, R126 to R128, R131, R265), on any bytes and under any parameters: the structural
errors in their order, the data by its bits, the checksum, the shim, the framing. -/
def Obligations.DecodeRepliesVerdict : Prop :=
  (∀ (P : Params) (lastChk : Byte) (lastChkV : Bool) (b : List Byte),
    Verdict P lastChk lastChkV b (decodeBody P lastChk lastChkV b))
  ∧ ∀ (who : Issuer) (n : BitVec 16) (data : List Byte) (s : State), data.length = n.toNat →
    if n.toNat ≤ s.params.bufLen then
      match decodeBody s.params s.lastChk s.lastChkV data with
      | .good rec rx =>
        Answers who
          (fun r => r.rc = 0#8 ∧ r.r0 = some 1#8 ∧ r.rn = some (BitVec.ofNat 16 rec.n) ∧ r.rdata = some rec.data)
          (exec (.decodePacket who n data) s) { s with lastChk := rx, lastChkV := true }
      | .bad e rx =>
        Answers who (fun r => r.rc = 0#8 ∧ r.r0 = some 0#8 ∧ r.rn = some 0#16 ∧ r.rdata = some [])
          (exec (.decodePacket who n data) s) (raise e (afterDecode rx s))
    else Refuses who (exec (.decodePacket who n data) s) s

/-- SEND_REPLY (R171, R153, R154): DEVLAYER under a CMD dispatch with TR_IDLE starts the SEND of a packet whose source
is the dispatched device's address; above MAX_PAYLOAD it is ERR_PARAM and nothing is sent; every other request, and any
under an IOERROR dispatch (R219), is refused. The premise on BUF_LEN is that a packet of no payload fits (R116). -/
def Obligations.SendReplyStartsSend : Prop :=
  ∀ (ptype status : Byte) (n : BitVec 16) (data : List Byte) (s : State), data.length = n.toNat → 17 ≤ s.params.bufLen →
    (if s.eng = .device ∧ s.dispValid = true ∧ s.trState = .idle ∧ s.dispKind ≠ .ioerror then
      if n.toNat ≤ maxPayload s.params then
        exec (.sendReply .devlayer ptype status n data) s = .next
          { s with
            txBuf := writeBytes 0 (encodeRaw s.params (devAt s s.dispSlot).addr ptype status data) s.txBuf,
            txLen := packetLen data.length, ack := false, trT0 := s.timer, trLimit := s.params.tSendReqRise,
            trState := .sWaitRise, busy := true }
      else
        Answers .devlayer (fun r => r.rc = 9#8) (exec (.sendReply .devlayer ptype status n data) s) (raise .param s)
    else Refuses .devlayer (exec (.sendReply .devlayer ptype status n data) s) s)
    ∧ Refuses .app (exec (.sendReply .app ptype status n data) s) s

/-- RECV_DATA (R172, R160): DEVLAYER under a CMD dispatch with TR_IDLE and 1 ≤ N ≤ BUF_LEN starts the RECV; every other
request, and any under an IOERROR dispatch (R219), is refused. -/
def Obligations.RecvDataStartsReceive : Prop :=
  ∀ (n : BitVec 16) (s : State),
    (if s.eng = .device ∧ s.dispValid = true ∧ s.trState = .idle ∧ s.dispKind ≠ .ioerror
        ∧ 1 ≤ n.toNat ∧ n.toNat ≤ s.params.bufLen then
      exec (.recvData .devlayer n) s = .next
        { s with ack := false, rxExpect := n.toNat, trT0 := s.timer, trLimit := s.params.tRecvReqRise,
                 trState := .rWaitRise, busy := true }
    else Refuses .devlayer (exec (.recvData .devlayer n) s) s)
    ∧ Refuses .app (exec (.recvData .app n) s) s

/-- DEV_DONE (R217): accepted from DEVLAYER only in E_DEVICE with TR_IDLE; it clears DISP_VALID, moves the engine to
E_FINISH and replies RC = 0. In E_DEVICE the engine makes no step of its own. -/
def Obligations.DevDoneEndsDispatch : Prop :=
  ∀ s : State,
    (if s.eng = .device ∧ s.trState = .idle then
      Answers .devlayer (fun r => r.rc = 0#8) (exec (.devDone .devlayer) s)
        { s with dispValid := false, eng := .finish }
    else Refuses .devlayer (exec (.devDone .devlayer) s) s)
    ∧ Refuses .app (exec (.devDone .app) s) s
    ∧ exec .eDevice s = .next s

/-- R94: an op code that is not in the table of R93 decodes to PORT_RESERVED, which changes no state and replies
ERR_BADOP. -/
def Obligations.UnlistedOpIsRefused : Prop :=
  ∀ (who : Issuer) (r : Request) (s : State),
    r.op ∉ [0x01#8, 0x02#8, 0x03#8, 0x04#8, 0x05#8, 0x10#8, 0x11#8, 0x20#8, 0x21#8, 0x2F#8] →
      Refuses who (exec (decodeRequest who r) s) s ∧ Refuses who (exec (.portReserved who r.op) s) s

/-! ### The service engine -/

/-- POLL_DISPATCH (R192): a transport step while TR_STATE is not TR_IDLE, else the offered request, else one ENG step.
Which of two offered requests comes first is open (notes/assumptions/7.md), so either may. With buffers whose valid
parts hold values the step completes. -/
def Obligations.PollStepDoesOneOfThree : Prop :=
  ∀ s : State,
    (ParamsOk s.params → BuffersOk s → ∃ t, exec .pollDispatch s = .next t)
    ∧ match s.trState with
    | .sWaitRise => exec .pollDispatch s = exec .sWaitRise s
    | .sWaitFall => exec .pollDispatch s = exec .sWaitFall s
    | .rWaitRise => exec .pollDispatch s = exec .rWaitRise s
    | .rWaitFall => exec .pollDispatch s = exec .rWaitFall s
    | .idle =>
      match s.reqApp, s.reqDev with
      | some r, none => exec .pollDispatch s = exec (decodeRequest .app r) { s with reqApp := none }
      | none, some r => exec .pollDispatch s = exec (decodeRequest .devlayer r) { s with reqDev := none }
      | some r, some r' =>
        exec .pollDispatch s = exec (decodeRequest .app r) { s with reqApp := none, draws := s.draws + 1 }
          ∨ exec .pollDispatch s = exec (decodeRequest .devlayer r') { s with reqDev := none, draws := s.draws + 1 }
      | none, none =>
        match s.eng with
        | .idle => exec .pollDispatch s = exec .eIdle s
        | .reset => exec .pollDispatch s = exec .eReset s
        | .enable => exec .pollDispatch s = exec .eEnable s
        | .claimWait => exec .pollDispatch s = exec .eClaimWait s
        | .decode => exec .pollDispatch s = exec .eDecode s
        | .initReply => exec .pollDispatch s = exec .eInitReply s
        | .device => exec .pollDispatch s = exec .eDevice s
        | .finish => exec .pollDispatch s = exec .eFinish s

/-- E_IDLE, E_RESET and E_ENABLE (R193, R194, R198): what each does for each class of the sampled phase. -/
def Obligations.EngineStatesThatSamplePhase : Prop :=
  ∀ s : State,
    match classify s.params s.phase with
    | .reset =>
      exec .eIdle s = exec .busReset s ∧ exec .eReset s = .next s ∧ exec .eEnable s = exec .busReset s
    | .enable =>
      exec .eIdle s = .next { s with eng := .enable } ∧ exec .eReset s = .next { s with eng := .idle }
        ∧ exec .eEnable s = if s.staged = true then exec .claim s else .next s
    | .idle =>
      exec .eIdle s = .next s ∧ exec .eReset s = .next { s with eng := .idle }
        ∧ exec .eEnable s = .next { s with eng := .idle }

/-- BUS_RESET (R196, R292): every ADDR, STAGED, ACK and CUR_KIND are cleared and ENG goes to E_RESET; everything else
is kept. -/
def Obligations.BusResetClearsAddresses : Prop :=
  ∀ s : State, exec .busReset s = .next
    { s with dev := s.dev.map (fun d => { d with addr := 0#8 }), staged := false, ack := false, curKind := .none,
             eng := .reset }

/-- CLAIM (R201, R202, R206): an unlocked or short body is dropped with ERR_NOSYNC or ERR_TRUNC; otherwise the target
is the first active unaddressed device for opcode 0x85 and the first active device with the non-zero address DEST for
any other opcode; with a target ACK is asserted and the wait for REQ = 0 begins, and with none nobody claims. -/
def Obligations.ClaimRoutesStagedCommand : Prop :=
  ∀ s : State,
    (s.mbLock = false → exec .claim s = .next { raise .nosync s with eng := .finish })
    ∧ (s.mbLock = true → s.mbLen < 7 → exec .claim s = .next { raise .trunc s with eng := .finish })
    ∧ (s.mbLock = true → 7 ≤ s.mbLen → ∀ b, memRead s.params s.mb 0 s.mbLen = .ok b →
        exec .claim s = .next (
          match
            if peekOpcode b = some 0x85#8 then
              s.chain.find? (fun i => (devAt s i).active && (devAt s i).addr == 0#8)
            else
              s.chain.find? (fun i => (devAt s i).active && (devAt s i).addr != 0#8 && (devAt s i).addr == byteAt b 0)
          with
          | none => { s with eng := .finish }
          | some t =>
            { s with curKind := if peekOpcode b = some 0x85#8 then .init else .cmd, curSlot := t, ack := true,
                     wT0 := s.timer, wLimit := s.params.tRecvReqFall, eng := .claimWait }))

/-- The opcode INIT (R95, R201, R205): the claim of a staged command whose opcode is 0x85 is INIT's step, whose target
is the first slot in CHAIN order with ACTIVE = 1 and ADDR = 0x00. That the row INIT is a step at all, namely this branch
of the claim, in any state, is the model's choice (notes/assumptions/13.md, 11.md). -/
def Obligations.InitTargetsFirstUnaddressed : Prop :=
  ∀ s : State,
    exec .initCmd s = .next (
      match s.chain.find? (fun i => (devAt s i).active && (devAt s i).addr == 0#8) with
      | none => { s with eng := .finish }
      | some t =>
        { s with curKind := .init, curSlot := t, ack := true, wT0 := s.timer, wLimit := s.params.tRecvReqFall,
                 eng := .claimWait })
    ∧ ∀ b, s.mbLock = true → 7 ≤ s.mbLen → memRead s.params s.mb 0 s.mbLen = .ok b → peekOpcode b = some 0x85#8 →
        exec .claim s = exec .initCmd s

/-- Routing correctness (R221, R203, R204, R206): a command whose DEST is the address of exactly one active device of
the chain is claimed for that device, and one whose DEST no active device holds is claimed for none, with ACK as
before. -/
def Obligations.RoutingReachesTheAddressedDevice : Prop :=
  ∀ (s : State) (b : List Byte), s.mbLock = true → 7 ≤ s.mbLen → memRead s.params s.mb 0 s.mbLen = .ok b →
    peekOpcode b ≠ some 0x85#8 →
    (∀ i ∈ s.chain, (devAt s i).active = true → (devAt s i).addr = peekDest b → peekDest b ≠ 0#8 →
      (∀ j ∈ s.chain, (devAt s j).active = true → (devAt s j).addr = peekDest b → j = i) →
      ∃ t, exec .claim s = .next t ∧ t.curSlot = i ∧ t.curKind = .cmd ∧ t.ack = true ∧ t.eng = .claimWait
        ∧ t.dev = s.dev)
    ∧ ((∀ j ∈ s.chain, (devAt s j).active = true → (devAt s j).addr = peekDest b → (devAt s j).addr = 0#8) →
      exec .claim s = .next { s with eng := .finish })

/-- E_CLAIM_WAIT (R209, R151): REQ = 0 goes on to E_DECODE, tested before the elapsed time; at the limit the command is
aborted with ERR_TIMEOUT_REQ_FALL; otherwise no change. -/
def Obligations.ClaimWaitsForReqToFall : Prop :=
  ∀ s : State, exec .eClaimWait s = .next (
    if reqLevel s = false then { s with eng := .decode }
    else if s.wLimit ≤ s.timer - s.wT0 then { raise .timeoutReqFall s with eng := .finish }
    else s)

/-- E_DECODE (R210, R211): a good decode is an INIT assignment or the dispatch of a CMD, by CUR_KIND; a failed one is
recorded and drops an INIT, assigning nothing and sending nothing, or dispatches an I/O error. -/
def Obligations.DecodeStepAssignsOrDispatches : Prop :=
  ∀ (s : State) (b : List Byte), memRead s.params s.mb 0 s.mbLen = .ok b →
    match decodeBody s.params s.lastChk s.lastChkV b with
    | .good rec rx =>
      if s.curKind = .init then exec .eDecode s = exec .initAssign s
      else exec .eDecode s = dispatched rec rx (capOf s.params rec.opcode) s
    | .bad e rx =>
      exec .eDecode s =
        if s.curKind = .init then .next { raise e (afterDecode rx s) with eng := .finish }
        else exec .dispatchIoerror s

/-- INIT_ASSIGN (R213): the current slot takes DEST as its address, the status says whether an active unaddressed
device remains, and the SEND of the status reply starts. The premise on BUF_LEN is that the 17-byte reply fits. -/
def Obligations.InitAssignsAddressAndReplies : Prop :=
  ∀ (s : State) (b : List Byte) (rec : DecRec) (rx : Byte), memRead s.params s.mb 0 s.mbLen = .ok b →
    decodeBody s.params s.lastChk s.lastChkV b = .good rec rx → 17 ≤ s.params.bufLen →
    ∃ status : Byte,
      status = (if ∃ j ∈ s.chain, j ≠ s.curSlot ∧ (devAt s j).active = true ∧ (devAt s j).addr = 0#8 then 0x00#8
        else 0xFF#8)
      ∧ exec .initAssign s = .next
        { s with
          dev := s.dev.set s.curSlot { devAt s s.curSlot with addr := rec.dest }, curDec := rec, curStatus := status,
          lastChk := rx, lastChkV := true,
          txBuf := writeBytes 0 (encodeRaw s.params rec.dest 0x81#8 status []) s.txBuf, txLen := 17,
          ack := false, trT0 := s.timer, trLimit := s.params.tSendReqRise, trState := .sWaitRise, eng := .initReply }

/-- DISPATCH_CMD and DISPATCH_IOERROR (R215, R212, R47): a CMD that decodes hands the record, the slot and the class
of its opcode to the device layer; one that does not is handed over as an I/O error with class NONE, and DISP_CMD is not
written. -/
def Obligations.DispatchHandsOverTheCommand : Prop :=
  ∀ (s : State) (b : List Byte), memRead s.params s.mb 0 s.mbLen = .ok b →
    match decodeBody s.params s.lastChk s.lastChkV b with
    | .good rec rx =>
      exec .dispatchCmd s = .next
        { s with
          lastChk := rx, lastChkV := true, curDec := rec, dispSlot := s.curSlot, dispKind := .cmd,
          dispCap := (match rec.data with
            | [] => .noCap
            | op :: _ => (s.params.opcodeCap.lookup op).getD .noCap),
          dispCmd := rec, dispValid := true, eng := .device }
    | .bad e rx =>
      exec .dispatchIoerror s = .next
        { raise e (afterDecode rx s) with
          dispSlot := s.curSlot, dispKind := .ioerror, dispCap := .noCap, dispValid := true, eng := .device }

/-- The command opcodes under the default OPCODE_CAP (R21, R92, R215, R220): the staged command whose first data byte
is the opcode is dispatched with the opcode's class, and one whose opcode has no row, or that has no opcode, with
NONE. That a command row is the step that dispatches the staged command at E_DECODE is the model's choice
(notes/assumptions/13.md). (Data with opcode 0x85 makes no well-formed CMD_NONE, and R201 never lets it reach this
table; the last branch gives it class NONE as the table's default.) -/
def Obligations.OpcodesDispatchTheirClass : Prop :=
  ∀ (s : State) (b : List Byte) (rec : DecRec) (rx : Byte), memRead s.params s.mb 0 s.mbLen = .ok b →
    decodeBody s.params s.lastChk s.lastChkV b = .good rec rx → s.params.opcodeCap = Params.default.opcodeCap →
    (match rec.data with
    | op :: ps =>
      if op = 0x80#8 then exec (.cmdStatus80 ps) s = dispatched rec rx .status s
      else if op = 0x81#8 then exec (.cmdRead81 ps) s = dispatched rec rx .read s
      else if op = 0x82#8 then exec (.cmdWrite82 ps) s = dispatched rec rx .write s
      else if op = 0x84#8 then exec (.cmdControl84 ps) s = dispatched rec rx .control s
      else if op = 0x86#8 then exec (.cmdOpen86 ps) s = dispatched rec rx .openCap s
      else if op = 0x87#8 then exec (.cmdClose87 ps) s = dispatched rec rx .closeCap s
      else if op = 0x88#8 then exec (.cmdRead88 ps) s = dispatched rec rx .read s
      else if op = 0x89#8 then exec (.cmdWrite89 ps) s = dispatched rec rx .write s
      else exec (.cmdNone (op :: ps)) s = dispatched rec rx .noCap s
    | [] => exec (.cmdNone []) s = dispatched rec rx .noCap s)

/-- E_INIT_REPLY and E_FINISH (R214, R216): the first ENG step after the reply's SEND goes to E_FINISH whatever
TR_RESULT holds, and E_FINISH releases ACK, the mailbox, CUR_KIND and the dispatch. -/
def Obligations.FinishReleasesEverything : Prop :=
  ∀ s : State, exec .eInitReply s = .next { s with eng := .finish }
    ∧ exec .eFinish s = .next
      { s with ack := false, staged := false, curKind := .none, dispValid := false, eng := .idle }

/-! ### The transport -/

/-- S_WAIT_RISE (R156, R157, R158, R151): on REQ = 1 the packet in TXBUF is emitted MSB first, ACK is asserted and the
wait for REQ = 0 begins; at the limit nothing is emitted and the operation ends with ERR_TIMEOUT_REQ_RISE. -/
def Obligations.SendWaitsForReqToRise : Prop :=
  ∀ (s : State) (raw : List Byte), memRead s.params s.txBuf 0 s.txLen = .ok raw →
    if reqLevel s = true then
      exec .sWaitRise s = .next
        { s with txBits := s.txBits ++ raw.flatMap byteBits, ack := true, trT0 := s.timer,
                 trLimit := s.params.tSendReqFall, trState := .sWaitFall }
    else if s.trLimit ≤ s.timer - s.trT0 then
      Ended (fun r => r.rc = 1#8) (exec .sWaitRise s)
        { raise .timeoutReqRise s with trResult := .timeoutRise, trState := .idle }
    else exec .sWaitRise s = .next s

/-- S_WAIT_FALL (R164, R151): REQ = 0 ends the SEND with OK, the limit with ERR_TIMEOUT_REQ_FALL; ACK stays. -/
def Obligations.SendWaitsForReqToFall : Prop :=
  ∀ s : State,
    if reqLevel s = false then
      Ended (fun r => r.rc = 0#8) (exec .sWaitFall s) { s with trResult := .ok, trState := .idle }
    else if s.trLimit ≤ s.timer - s.trT0 then
      Ended (fun r => r.rc = 2#8) (exec .sWaitFall s)
        { raise .timeoutReqFall s with trResult := .timeoutFall, trState := .idle }
    else exec .sWaitFall s = .next s

/-- R_WAIT_RISE (R161, R162, R151): on REQ = 1 the samples of one capture are deserialized into RXBUF, ACK is asserted
and the wait for REQ = 0 begins; at the limit nothing is captured. Of the state after the capture only what HOST has
queued, and the draw counter, differ. -/
def Obligations.ReceiveWaitsForReqToRise : Prop :=
  ∀ s : State,
    if reqLevel s = true then
      ∃ (xs : List Bool) (u : State), capture ((88 * s.rxExpect * s.params.os + 9) / 10) s = (xs, u)
        ∧ u = { s with hostLine := u.hostLine, samples := u.samples, draws := u.draws }
        ∧ exec .rWaitRise s = .next
          { u with
            rxBuf := writeBytes 0 (deserialize s.params xs).2 s.rxBuf, rxLen := (deserialize s.params xs).2.length,
            rxLock := (deserialize s.params xs).1, ack := true, trT0 := s.timer, trLimit := s.params.tRecvReqFall,
            trState := .rWaitFall }
    else if s.trLimit ≤ s.timer - s.trT0 then
      Ended (fun r => r.rc = 1#8) (exec .rWaitRise s)
        { raise .timeoutReqRise s with trResult := .timeoutRise, trState := .idle }
    else exec .rWaitRise s = .next s

/-- R_WAIT_FALL (R163, R172, R151): once REQ = 0 a capture that never locked is ERR_NOSYNC, and a locked body is decoded;
the reply carries the verdict, with the data of a good decode; the limit is ERR_TIMEOUT_REQ_FALL without a decode; ACK
stays. -/
def Obligations.ReceiveWaitsForReqToFall : Prop :=
  ∀ (s : State) (b : List Byte), memRead s.params s.rxBuf 0 s.rxLen = .ok b →
    if reqLevel s = false then
      if s.rxLock = false then
        Ended (fun r => r.rc = 0#8 ∧ r.r0 = some 0#8 ∧ r.rn = some 0#16) (exec .rWaitFall s)
          { raise .nosync s with trResult := .decodeFail, trState := .idle }
      else
        match decodeBody s.params s.lastChk s.lastChkV b with
        | .good rec rx =>
          Ended
            (fun r => r.rc = 0#8 ∧ r.r0 = some 1#8 ∧ r.rn = some (BitVec.ofNat 16 rec.n) ∧ r.rdata = some rec.data)
            (exec .rWaitFall s) { s with lastChk := rx, lastChkV := true, trResult := .ok, trState := .idle }
        | .bad e rx =>
          Ended (fun r => r.rc = 0#8 ∧ r.r0 = some 0#8 ∧ r.rn = some 0#16) (exec .rWaitFall s)
            { raise e (afterDecode rx s) with trResult := .decodeFail, trState := .idle }
    else if s.trLimit ≤ s.timer - s.trT0 then
      Ended (fun r => r.rc = 2#8) (exec .rWaitFall s)
        { raise .timeoutReqFall s with trResult := .timeoutFall, trState := .idle }
    else exec .rWaitFall s = .next s

/-! ### The interrupt and the timer -/

/-- ISR_START (R224): enabled with IRQ_PEND = 1, IMASK = 0 and ISR_STATE = I_IDLE; it takes the request and begins the
prefetch only with Enable, REQ = 1 and STAGED = 0. -/
def Obligations.InterruptEntryTakesTheRequest : Prop :=
  ∀ s : State,
    (enabled .isrStart s = true ↔ s.irqPend = true ∧ s.trState = .idle ∧ s.isrState = .idle)
    ∧ exec .isrStart s = .next (
      if classify s.params s.phase = .enable ∧ reqLevel s = true ∧ s.staged = false then
        { s with irqPend := false, isrT0 := s.timer, isrState := .waitRise }
      else { s with irqPend := false })

/-- I_WAIT_RISE and ISR_STAGE (R225, R226, R151): on REQ = 1 one capture is deserialized into the mailbox, STAGED is set
and the interrupt returns; at the limit it returns with nothing staged and nothing raised. Of the state after the
capture only what HOST has queued, and the draw counter, differ. -/
def Obligations.PrefetchStagesTheCommand : Prop :=
  ∀ s : State,
    (∃ (xs : List Bool) (u : State), capture ((88 * s.params.cmdPacketLen * s.params.os + 9) / 10) s = (xs, u)
      ∧ u = { s with hostLine := u.hostLine, samples := u.samples, draws := u.draws }
      ∧ exec .isrStage s = .next
        { u with
          mb := writeBytes 0 (deserialize s.params xs).2 s.mb, mbLen := (deserialize s.params xs).2.length,
          mbLock := (deserialize s.params xs).1, staged := true, isrState := .idle })
    ∧ exec .iWaitRise s =
      if reqLevel s = true then exec .isrStage s
      else if s.params.tRecvReqRise ≤ s.timer - s.isrT0 then .next { s with isrState := .idle }
      else .next s

/-- R227: an ISR step writes only ISR_STATE, ISR_T0, IRQ_PEND, MB, MB_LEN, MB_LOCK and STAGED, and STAGED only to 1.
(What HOST has queued for the line, and the draw counter, are the environment's.) -/
def Obligations.InterruptWritesOnlyItsRegisters : Prop :=
  ∀ (i : Instr) (s t : State), i = .isrStart ∨ i = .iWaitRise ∨ i = .isrStage → exec i s = .next t →
    t = { s with
          isrState := t.isrState, isrT0 := t.isrT0, irqPend := t.irqPend, mb := t.mb, mbLen := t.mbLen,
          mbLock := t.mbLock, staged := t.staged, hostLine := t.hostLine, samples := t.samples, draws := t.draws }
    ∧ (s.staged = true → t.staged = true)

/-- TIMER_TICK and EDGE_DETECT (R44, R223): TIMER goes up by one modulo 2^32, a changed phase vector sets IRQ_PEND, and
PREV_PHASE follows PHASE. -/
def Obligations.TimerStepTicksAndDetectsEdges : Prop :=
  ∀ s : State,
    exec .edgeDetect s = .next
      { s with irqPend := if s.phase ≠ s.prevPhase then true else s.irqPend, prevPhase := s.phase }
    ∧ exec .timerTick s = .next
      { s with timer := s.timer + 1, irqPend := if s.phase ≠ s.prevPhase then true else s.irqPend,
               prevPhase := s.phase }

/-! ### The wire -/

/-- R190: classify is set membership, and with the default sets 0x5 is Reset, 0xA, 0xB, 0xE and 0xF are Enable, and the
other eleven vectors are Idle. -/
def Obligations.PhaseVectorsAreClassified : Prop :=
  (∀ (P : Params) (p : Phase),
    classify P p = if p ∈ P.resetSet then .reset else if p ∈ P.enableSet then .enable else .idle)
  ∧ ∀ p : Phase,
    (classify Params.default p = .reset ↔ p.toNat = 5)
    ∧ (classify Params.default p = .enable ↔ p.toNat = 10 ∨ p.toNat = 11 ∨ p.toNat = 14 ∨ p.toNat = 15)

/-- HOST's steps. REQ is PHASE[0] when REQ_IS_PH0 and REQ_PIN otherwise (R49), and driving it (R98) sets it and changes
nothing else. The wire codes are HOST's (R3, R48, R98), by the model's choice (notes/assumptions/12.md): PHASE_RESET,
PHASE_ENABLE and PHASE_IDLE drive the phase lines; TYPE_COMMAND, TYPE_STATUS, TYPE_DATA, TYPE_RESERVED, SYNC, START,
END, HEADER, COUNTS, ODD_HEADER, GROUP_HEADER, STUFFED_BYTE, CHK1 and CHK2 queue their own bytes for the next capture;
nothing else changes. -/
def Obligations.HostDrivesTheWireCodes : Prop :=
  (∀ s : State, reqLevel s = if s.params.reqIsPh0 = true then s.phase.getLsbD 0 else s.reqPin)
  ∧ (∀ (s : State) (v : Bool) (rest : List Entry), s.script = .req v :: rest →
    ∃ t, step s = .next t ∧ reqLevel t = v ∧ t = { s with script := rest, phase := t.phase, reqPin := t.reqPin }
      ∧ (s.params.reqIsPh0 = true → t.reqPin = s.reqPin)
      ∧ ∀ k, (s.params.reqIsPh0 = true → k ≠ 0) → t.phase.getLsbD k = s.phase.getLsbD k) ∧
  (∀ (p : Phase) (s : State), exec (.phaseReset p) s = .next { s with phase := p }
    ∧ exec (.phaseEnable p) s = .next { s with phase := p } ∧ exec (.phaseIdle p) s = .next { s with phase := p })
  ∧ ∀ (i : Instr) (s : State), (encode i).1 = .pktType ∨ (∃ pos, (encode i).1 = .frame pos) →
    exec i s = .next { s with hostLine := some (s.hostLine.getD [] ++ (encode i).2) }

/-- Serialization (R152): eight bits for each byte, in order, bit 7 first. -/
def Obligations.SerializationIsMsbFirst : Prop :=
  ∀ bs : List Byte, (serialize bs).length = 8 * bs.length
    ∧ ∀ i k, k < 8 → (serialize bs)[8 * i + k]? = (bs[i]?).map (fun x => x.getLsbD (7 - k))

/-- A capture (R159, R68, R99): N samples, where N for a raw length L is `L * 8 * OS * 11 / 10` rounded up; queued
bytes come through the reference encoder, an empty list of them as an idle line; else queued raw samples are taken from
the front and are gone afterwards, and only what HOST has queued and the draw counter change. The samples HOST has not
queued are free. -/
def Obligations.CaptureTakesSamplesFromTheHost : Prop :=
  (∀ os len, 88 * len * os ≤ 10 * nsamp os len ∧ 10 * nsamp os len < 88 * len * os + 10)
  ∧ (∀ P n, hostSamples P [] n = List.replicate n false)
  ∧ ∀ (n : Nat) (s : State), (capture n s).1.length = n
    ∧ (∀ bytes, s.hostLine = some bytes →
        capture n s = (hostSamples s.params bytes n, { s with hostLine := none }))
    ∧ (s.hostLine = none →
        (capture n s).1.take s.samples.length = s.samples.take n
        ∧ (capture n s).2 = { s with samples := s.samples.drop n, draws := s.draws + (n - s.samples.length) })

/-- The whole line (R165 to R170, R135): a packet of the block's own encoder, sent by the reference host after 8 idle
cells, is recovered by the deserializer, whatever follows it in the window, and decodes to the data it was made of. -/
def Obligations.PacketSurvivesTheLine : Prop :=
  ∀ (P : Params) (src ptype status : Byte) (data : List Byte) (n : Nat) (chk : Byte) (chkV : Bool),
    17 ≤ P.bufLen → 1 ≤ P.os → data.length ≤ maxPayload P → 8 * P.os * (1 + packetLen data.length) ≤ n →
    (deserialize P (hostSamples P (encodeRaw P src ptype status data) n)).1 = true
    ∧ (deserialize P (hostSamples P (encodeRaw P src ptype status data) n)).2.take (packetLen data.length - 7)
        = (encodeRaw P src ptype status data).drop 7
    ∧ ∃ rec rx, decodeBody P chk chkV (deserialize P (hostSamples P (encodeRaw P src ptype status data) n)).2
        = .good rec rx ∧ rec.data = data

/-! ### The codec -/

/-- Round trip (R135, R122, R125): for every payload within the bound, with the shim on or off and any bytes after the
end byte, the encoded body decodes to the payload and to the header bytes as sent. -/
def Obligations.DecodeInvertsEncode : Prop :=
  ∀ (P : Params) (src ptype status : Byte) (data after : List Byte) (chk : Byte) (chkV : Bool),
    data.length ≤ maxPayload P →
    ∃ rx, decodeBody P chk chkV ((encodeRaw P src ptype status data).drop 7 ++ after)
      = .good { dest := P.hostDest ||| 0x80#8, src := src ||| 0x80#8, ptype := ptype ||| 0x80#8,
                aux := P.txAux ||| 0x80#8, stat := status ||| 0x80#8, data := data } rx

/-- Checksum sensitivity (R136): with strict framing and the shim off, a flip of any one bit of an encoded body outside
the two count bytes makes decode fail. (For the count bytes R136 gives no proof.) -/
def Obligations.SingleBitFlipsAreCaught : Prop :=
  ∀ (P : Params) (src ptype status : Byte) (data : List Byte) (k : Nat) (chk : Byte) (chkV : Bool),
    P.strictFraming = true → P.quirkEnable = false → data.length ≤ maxPayload P →
    k / 8 < packetLen data.length - 7 → k / 8 ≠ 5 → k / 8 ≠ 6 →
    ∃ e rx, decodeBody P chk chkV (flipBit ((encodeRaw P src ptype status data).drop 7) k) = .bad e (some rx)

/-- The form of an encoded packet (R111 to R116, R119, R137, R80, R90): L(n) bytes, the preamble and start byte, the header,
the odd section (its header byte at body index 7, the MSB of odd byte k at bit 6-k, the unused bits 0), the group sections
(the MSB of byte k of a group at bit 6-k of its header), the split checksum and the end byte, and bit 7 set in every byte
after the preamble. MAX_PAYLOAD (R8) is the largest payload length whose counts fit 7 bits and whose packet fits a
buffer. -/
def Obligations.EncodedPacketForm : Prop :=
  (∀ n, packetLen n = 6 + 1 + 7 + n % 7 + (if n % 7 = 0 then 0 else 1) + 8 * (n / 7) + 2 + 1)
  ∧ (∀ P : Params, 17 ≤ P.bufLen → maxPayload P ≤ 895 ∧ packetLen (maxPayload P) ≤ P.bufLen
      ∧ ∀ n, n ≤ 895 → packetLen n ≤ P.bufLen → n ≤ maxPayload P)
  ∧ maxPayload Params.default = 514
  ∧ ∀ (P : Params) (src ptype status : Byte) (data : List Byte),
    (fun body : List Byte =>
      body.take 7 = [P.hostDest ||| 0x80#8, src ||| 0x80#8, ptype ||| 0x80#8, P.txAux ||| 0x80#8, status ||| 0x80#8,
        0x80#8 ||| BitVec.ofNat 8 (data.length % 7), 0x80#8 ||| BitVec.ofNat 8 (data.length / 7)]
      ∧ (data.length % 7 ≠ 0 → SectionAt body data 7 0 (data.length % 7))
      ∧ (∀ g, g < data.length / 7 →
          SectionAt body data (firstGroup (data.length % 7) + 8 * g) (data.length % 7 + 7 * g) 7)
      ∧ body.drop (firstGroup (data.length % 7) + 8 * (data.length / 7))
        = [(xorBytes data ^^^ xorBytes (body.take 7)) ||| 0xAA#8,
           ((xorBytes data ^^^ xorBytes (body.take 7)) >>> 1) ||| 0xAA#8, 0xC8#8])
      ((encodeRaw P src ptype status data).drop 7)
    ∧ (encodeRaw P src ptype status data).length = packetLen data.length
    ∧ (encodeRaw P src ptype status data).take 7 = [0xFF#8, 0x3F#8, 0xCF#8, 0xF3#8, 0xFC#8, 0xFF#8, 0xC3#8]
    ∧ (encodeRaw P src ptype status data)[12]? = some (0x80#8 ||| BitVec.ofNat 8 (data.length % 7))
    ∧ (encodeRaw P src ptype status data)[13]? = some (0x80#8 ||| BitVec.ofNat 8 (data.length / 7))
    ∧ (∀ b ∈ (encodeRaw P src ptype status data).drop 6, b.getLsbD 7 = true)
    ∧ (encodeRaw P src ptype status data).getLast? = some 0xC8#8

/-- The peeks (R133, R134): whenever a body passes decode's structural checks, peek_opcode is the first byte of the data
decode reconstructs, and peek_dest is its DEST. -/
def Obligations.PeekAgreesWithDecode : Prop :=
  ∀ (P : Params) (b : List Byte) (odd groups : Nat), structureOf P b = .ok (odd, groups) →
    peekOpcode b = (reconstruct b odd groups).head? ∧ peekDest b = byteAt b 0

/-! ### Errors, buffers and the CSR view -/

/-- R264, R260: `raise` writes LAST_ERR and sets the code's bit of ERR_FLAGS, and the codes are 1 to 13 without 10, as R260
numbers them. -/
def Obligations.RaiseRecordsTheCode : Prop :=
  (∀ (e : Err) (s : State),
    raise e s = { s with lastErr := BitVec.ofNat 8 e.num, errFlags := s.errFlags ||| BitVec.twoPow 16 e.num })
  ∧ (∀ e : Err, 1 ≤ e.num ∧ e.num ≤ 13 ∧ e.num ≠ 10)
  ∧ ([.timeoutReqRise, .timeoutReqFall, .checksum, .framing, .trunc, .oddcnt, .length, .nosync, .param, .slotBusy,
      .slotEmpty, .noDevice] : List Err).map Err.num = [1, 2, 3, 4, 5, 6, 7, 8, 9, 11, 12, 13]
  ∧ ∀ k, 1 ≤ k → k ≤ 13 → k ≠ 10 → ∃ e : Err, e.num = k

/-- MemRead and MemWrite (R63, R62): the bytes, or fault UNWRITTEN, or fault BUF_RANGE; a write changes exactly the
bytes it names. -/
def Obligations.BufferAccess : Prop :=
  ∀ (P : Params) (m : Memory) (i : Nat),
    (∀ n, if P.bufLen < i + n then memRead P m i n = .error .bufRange
      else if ∃ k, k < n ∧ readByte m (i + k) = none then memRead P m i n = .error .unwritten
      else ∃ vs, memRead P m i n = .ok vs ∧ vs.length = n ∧ ∀ k, k < n → vs[k]? = readByte m (i + k))
    ∧ ∀ vs, if P.bufLen < i + vs.length then memWrite P m i vs = .error .bufRange
      else ∃ m', memWrite P m i vs = .ok m'
        ∧ ∀ j, readByte m' j = if i ≤ j ∧ j < i + vs.length then vs[j - i]? else readByte m j

/-- The CSR view (R55, R66): an aligned 32-bit read gives the word at its offset and changes nothing of the block, and a
write clears the ERR_FLAGS bits written as 1 and does nothing anywhere else; a narrower, wider or misaligned access is
fault CSR_ACCESS. That the word read goes to the field `csrOut` is the model's choice (notes/assumptions/10.md). -/
def Obligations.CsrAccess : Prop :=
  ∀ (s : State) (off : Nat), off < 0x600 →
    (off % 4 = 0 → ∀ v : Word32,
      csrRead (s.params.csrBase + off) 32 s = .next { s with csrOut := csrWord s off }
      ∧ csrWrite (s.params.csrBase + off) 32 v s =
        .next (if off = 0x00C then { s with errFlags := s.errFlags &&& ~~~(v.setWidth 16) } else s))
    ∧ ∀ (width : Nat) (v : Word32), width ≠ 32 ∨ off % 4 ≠ 0 →
      csrRead (s.params.csrBase + off) width s = .fault .csrAccess
        ∧ csrWrite (s.params.csrBase + off) width v s = .fault .csrAccess

/-- The CSR words (R54): the fields of every register of the table, with the codes of ENG (R31), BUS_STATE (R32), TR_STATE
(R37), CUR_KIND (R36) and TR_RESULT (R54); 0xFF at every chain position at and above CHAIN_LEN; DEV[i] beyond MAX_DEVICES and
every other reserved offset read 0. The code of the phase class, that the chain positions run to the window's end and the
device slots to MAX_DEVICES, are the model's choice (notes/assumptions/10.md), and so is the truncation of slot numbers and
lengths to their fields (notes/assumptions/23.md). -/
def Obligations.CsrFields : Prop :=
  ∀ (s : State), s.params.maxDevices ≤ 128 →
    (csrWord s 0x000).toNat =
      (match s.eng with
        | .idle => 0 | .reset => 1 | .enable => 2 | .claimWait => 3 | .decode => 4 | .initReply => 5 | .device => 6
        | .finish => 7)
        + 8 * (match s.eng with
          | .idle => 0 | .reset => 1
          | .enable | .claimWait | .decode | .initReply | .device | .finish => 2)
        + 32 * s.staged.toNat + 64 * s.ack.toNat + 128 * s.irqPend.toNat
        + 256 * (match s.isrState with | .idle => 0 | .waitRise => 1)
        + 512 * (match s.trState with
          | .idle => 0 | .sWaitRise => 1 | .sWaitFall => 2 | .rWaitRise => 3 | .rWaitFall => 4)
        + 4096 * s.lastChkV.toNat + 8192 * s.mbLock.toNat + 16384 * s.dispValid.toNat
    ∧ (csrWord s 0x004).toNat =
      s.phase.toNat + 16 * (reqLevel s).toNat + 256 * s.prevPhase.toNat
        + 4096 * (match classify s.params s.phase with | .idle => 0 | .reset => 1 | .enable => 2)
    ∧ (csrWord s 0x008).toNat = s.lastErr.toNat ∧ (csrWord s 0x00C).toNat = s.errFlags.toNat
    ∧ (csrWord s 0x010).toNat = s.lastChk.toNat ∧ csrWord s 0x014 = s.timer
    ∧ (csrWord s 0x018).toNat = s.mbLen % 65536 ∧ (csrWord s 0x01C).toNat = s.chain.length % 256
    ∧ (csrWord s 0x020).toNat =
      (match s.curKind with | .none => 0 | .init => 1 | .cmd => 2) + 256 * (s.curSlot % 256)
        + 65536 * s.curStatus.toNat
    ∧ (csrWord s 0x024).toNat =
      (match s.trResult with | .ok => 0 | .timeoutRise => 1 | .timeoutFall => 2 | .decodeFail => 3)
        + 65536 * (s.rxLen % 65536)
    ∧ (∀ i, i < 128 → (csrWord s (0x200 + 4 * i)).toNat =
        if i < s.params.maxDevices then
          (devAt s i).present.toNat + 2 * (devAt s i).active.toNat + 256 * (devAt s i).addr.toNat
            + 65536 * (devAt s i).dtype.toNat
        else 0)
    ∧ (∀ k, k < 128 → (csrWord s (0x400 + 4 * k)).toNat =
        if h : k < s.chain.length then s.chain[k] % 256 else 255)
    ∧ ∀ off, 0x028 ≤ off → off < 0x200 → csrWord s off = 0

/-! ### Steps, codes and the schedule -/

/-- What a step runs (R29, R302; notes/assumptions/2.md): a scheduled code that decodes to an operation its agent has
is that operation's execution, one its agent does not have is no step, and a code of no operation is refused; with
nothing scheduled the rounds of the reference schedule go on: a TIMER step, then the ISR step if ISR has one, else a
POLL step. -/
def Obligations.StepRunsTheDecodedOperation : Prop :=
  ∀ s : State,
    (∀ f bs rest, s.script = .code f bs :: rest →
      match decode s.params f bs with
      | .ok i => step s = if enabled i { s with script := rest } = true then exec i { s with script := rest }
          else .next { s with script := rest }
      | .error e => step s = .refused (.undecodable e))
    ∧ (s.script = [] →
      match s.turn with
      | .timer => step s = exec .timerTick { s with turn := .core }
      | .core => step s =
          exec (if s.isrState = .waitRise then .iWaitRise
            else if s.irqPend = true ∧ s.trState = .idle ∧ s.isrState = .idle then .isrStart
            else .pollDispatch) { s with turn := .timer })

/-- Placing a word of the opcode table as the next step (notes/assumptions/1.md): the very next step executes the
instruction the decoder reads from it, in the state its agent needs. -/
def Obligations.FetchWordRunsNext : Prop :=
  ∀ (s : State) (nbits w : Nat) (i : Instr), s.params = Params.default → decodeTableWord nbits w = some i →
    step (s.withFetchWord nbits w) = exec i (prepare i s)

/-- Some codes decode to the operations they stand for (R93, R31, R37, R91, R85, R92, R81 to R89). -/
def Obligations.SomeCodesDecode : Prop :=
  decode Params.default (.port .app) [0x01#8, 0x02#8, 0x10#8, 0x00#8, 0x00#8, 0x00#8] = .ok (.addDevice .app 2#8 0x10#8)
  ∧ decode Params.default (.port .devlayer) [0x20#8, 0x81#8, 0x00#8, 0x00#8, 0x01#8, 0x00#8, 0xF8#8]
      = .ok (.sendReply .devlayer 0x81#8 0x00#8 1#16 [0xF8#8])
  ∧ decode Params.default .engStep [0x04#8] = .ok .eDecode ∧ decode Params.default .trStep [0x03#8] = .ok .rWaitRise
  ∧ decode Params.default .phase [0x05#8] = .ok (.phaseReset 0b0101#4)
  ∧ decode Params.default .pktType [0x82#8] = .ok .typeData
  ∧ decode Params.default .cmdOpcode [0x81#8, 0x03#8] = .ok (.cmdRead81 [0x03#8])
  ∧ decode Params.default (.frame .counts) [0x84#8, 0x81#8] = .ok (.counts 4#7 1#7)
  ∧ decode Params.default (.frame .oddHeader) [0xD4#8] = .ok (.oddHeader 0b101010#6)
  ∧ decode Params.default (.frame .chk2) [0xFA#8] = .ok (.chk2 0b1100#4)

/-- Decode and encode agree: every well-formed operation is what its code decodes to, every operand at every value its
encoding admits. -/
def Obligations.DecodeEncodeRoundTrip : Prop :=
  ∀ (P : Params) (i : Instr), i.wellFormed P = true → decode P (encode i).1 (encode i).2 = .ok i

/-! ### What every step keeps -/

/-- Every step keeps the buffers canonical, within BUF_LEN, and holding a value in every byte of their valid part (R62,
R63, R64). -/
def Obligations.EveryStepKeepsBuffers : Prop :=
  ∀ s t : State, BuffersOk s → step s = .next t → BuffersOk t

/-- No step from a state with such buffers ends in fault UNWRITTEN or BUF_RANGE (R275, R62). -/
def Obligations.NoStepFaultsOnBuffers : Prop :=
  ∀ s : State, ParamsOk s.params → BuffersOk s → NoBufferFault (step s)

/-- Every step keeps the chain invariant (R42), with the slots of a command in flight in the chain (R245). -/
def Obligations.EveryStepKeepsRegistry : Prop :=
  ∀ s t : State, RegistryOk s → step s = .next t → RegistryOk t

/-- Every step keeps the relation between the engine, the mailbox handoff, the transport, ACK and the dispatch (R224,
R71, R77, R150, R207, R216). -/
def Obligations.EveryStepKeepsHandoff : Prop :=
  ∀ s t : State, HandoffOk s → step s = .next t → HandoffOk t

/-- Every step keeps the error record legal, and a step that is neither a CSR write nor a power-on reset records at
most one code (R260, R265). -/
def Obligations.EveryStepRecordsAtMostOneError : Prop :=
  ∀ s t : State, step s = .next t →
    (ErrorsOk s → ErrorsOk t)
    ∧ (csrWriteNext s = false → powerOnNext s = false → AtMostOneError s t)

/-- Preemption (R228, R72): while ISR is active or about to start, no step but a power-on reset changes a register of
POLL's, and an offered request waits. -/
def Obligations.InterruptPreemptsPoll : Prop :=
  ∀ s t : State, pollHasStep s = false → powerOnNext s = false → step s = .next t →
    SamePollState s t ∧ t.lastChk = s.lastChk ∧ t.lastChkV = s.lastChkV
    ∧ (s.reqApp ≠ none → t.reqApp = s.reqApp) ∧ (s.reqDev ≠ none → t.reqDev = s.reqDev)

/-- The handoff (R71): while a command is staged the mailbox does not change, so a consumer never reads one the
producer is overwriting. -/
def Obligations.StagedMailboxIsStable : Prop :=
  ∀ s t : State, HandoffOk s → s.staged = true → powerOnNext s = false → step s = .next t → SameMailbox s t

/-- No step writes a parameter (R75); TIMER moves only by single ticks (R44); and bits are emitted only when a SEND's
wait for REQ succeeds, and then exactly the packet in TXBUF (R155, R156, R263). -/
def Obligations.OnlySendsEmit : Prop :=
  ∀ s t : State, step s = .next t →
    t.params = s.params
    ∧ (powerOnNext s = false → t.timer = s.timer ∨ t.timer = s.timer + 1)
    ∧ (readTxNext s = false → t.txBits = s.txBits
        ∨ ∃ raw, s.trState = .sWaitRise ∧ reqLevel s = true ∧ memRead s.params s.txBuf 0 s.txLen = .ok raw
          ∧ t.txBits = s.txBits ++ serialize raw ∧ t.ack = true ∧ t.trState = .sWaitFall)

/-- The idle invariant (R200): on an idle bus, whatever Idle vectors HOST drives (by vector or by REQ), every step is a
step, the bus stays idle, and no device changes, nothing is emitted or captured, and ACK does not change. That no
transport operation is under way and no prefetch is waiting when the bus goes idle is a premise here; R200 leaves it
unsaid. -/
def Obligations.IdleBusStaysIdle : Prop :=
  ∀ s : State, IdleBus s → ∃ t, step s = .next t ∧ IdleBus t ∧ t.dev = s.dev ∧ t.chain = s.chain ∧ t.ack = s.ack
    ∧ t.txBits = s.txBits ∧ t.hostLine = s.hostLine ∧ t.samples = s.samples ∧ t.draws = s.draws

/-- After power-on reset (R56, R290, R291; notes/assumptions/3.md, 4.md): the values of the R56 table, from any
parameters and pins, and every invariant above holds; the all-zero CUR_DEC is the model's choice and is not stated. The
state of the machine's reset is one of these. A power-on entry of the schedule leads to it, with the environment as it
was and a new round beginning with TIMER, by the model's choice (notes/assumptions/22.md, 30.md). -/
def Obligations.PowerOnReset : Prop :=
  (∀ (P : Params) (p : Phase) (q : Bool),
    (fun s : State =>
      s.eng = .idle ∧ s.ack = false ∧ s.staged = false ∧ s.mbLen = 0 ∧ s.mbLock = false ∧ s.curKind = .none
      ∧ s.curSlot = 0 ∧ s.curStatus = 0#8 ∧ s.wT0 = 0#32 ∧ s.wLimit = 0#32 ∧ s.trT0 = 0#32 ∧ s.trLimit = 0#32
      ∧ s.isrT0 = 0#32 ∧ s.trState = .idle ∧ s.trResult = .ok ∧ s.txLen = 0 ∧ s.rxLen = 0 ∧ s.rxLock = false
      ∧ s.rxExpect = 0 ∧ s.isrState = .idle ∧ s.irqPend = false ∧ s.prevPhase = p ∧ s.phase = p
      ∧ (∀ i, devAt s i = { present := false, active := false, addr := 0#8, dtype := 0#8 }) ∧ s.chain = []
      ∧ s.lastChk = 0#8 ∧ s.lastChkV = false ∧ s.lastErr = 0#8 ∧ s.errFlags = 0#16 ∧ s.timer = 0#32
      ∧ s.dispValid = false
      ∧ (∀ i, readByte s.mb i = none ∧ readByte s.txBuf i = none ∧ readByte s.rxBuf i = none)
      ∧ BuffersOk s ∧ RegistryOk s ∧ HandoffOk s ∧ ErrorsOk s) (State.powerOn P p q))
  ∧ State.reset = State.powerOn Params.default 0b0000#4 false ∧ ParamsOk Params.default
  ∧ ∀ (s : State) (rest : List Entry), s.script = .powerOn :: rest →
    step s = .next
      { State.powerOn s.params s.phase s.reqPin with
        txBits := s.txBits, hostLine := s.hostLine, samples := s.samples, csrOut := s.csrOut,
        refusedOp := s.refusedOp, script := rest, draws := s.draws, hostTimeouts := s.hostTimeouts,
        txChecked := s.txChecked, expectFailed := s.expectFailed }

/-! ### INIT addressing -/

/-- Addressing (R222, R205, R213): from a chain with k ≥ 1 active devices, all unaddressed, k INIT cycles with distinct
non-zero addresses give the i-th active device in CHAIN order the i-th address; the first k - 1 reply 0x00 and the last
0xFF; no active device is left unaddressed, addresses are unique, and no other device changes. -/
def Obligations.InitSweepAddressesTheChain : Prop :=
  ∀ (s : State) (ds : List Byte), ChainOk s → (∀ i ∈ s.chain, (devAt s i).addr = 0#8) →
    0 < (s.chain.filter (fun i => (devAt s i).active)).length →
    ds.length = (s.chain.filter (fun i => (devAt s i).active)).length → ds.Nodup → 0#8 ∉ ds →
    ∃ t : State, initSweep ds s = some (List.replicate (ds.length - 1) 0x00#8 ++ [0xFF#8], t)
      ∧ (∀ k i : Nat, (s.chain.filter (fun i => (devAt s i).active))[k]? = some i → ds[k]? = some (devAt t i).addr)
      ∧ (∀ i, i ∉ s.chain.filter (fun i => (devAt s i).active) → devAt t i = devAt s i)
      ∧ (∀ i ∈ s.chain, ∀ j ∈ s.chain, (devAt t i).active = true → (devAt t j).active = true →
          (devAt t i).addr = (devAt t j).addr → i = j)
      ∧ initTarget t = none

/-- One INIT cycle on the machine (R201, R209, R210, R213): the claim, the wait with REQ low and the decode of a staged
INIT assign what `initCycle` assigns, with its status, and start the SEND of the reply with ACK released. -/
def Obligations.InitCycleOnTheMachine : Prop :=
  ∀ (s : State) (b : List Byte) (rec : DecRec) (rx : Byte) (t : Nat) (p : Phase) (q : Bool),
    s.mbLock = true → 7 ≤ s.mbLen → memRead s.params s.mb 0 s.mbLen = .ok b →
    decodeBody s.params s.lastChk s.lastChkV b = .good rec rx → rec.opcode = some 0x85#8 →
    initTarget s = some t → 17 ≤ s.params.bufLen → reqLevel { s with phase := p, reqPin := q } = false →
    ∃ s1 s2 s3 : State, exec .claim s = .next s1 ∧ s1.ack = true ∧ s1.curSlot = t
      ∧ exec .eClaimWait { s1 with phase := p, reqPin := q } = .next s2 ∧ exec .eDecode s2 = .next s3
      ∧ initCycle rec.dest s = some (s3.curStatus, { s with dev := s3.dev })
      ∧ s3.eng = .initReply ∧ s3.trState = .sWaitRise ∧ s3.ack = false ∧ s3.curStatus ∈ [0x00#8, 0xFF#8]
end

