-- ==== Sys2Proof/Laws/Decode.lean ====
section
/-! SUPPORT. The decoder's equations, one per code space and frame position, and the fields of the frame bytes. -/

namespace Sys2Proof

@[simp] theorem oneByte_single (k : Byte → Except DecodeError Instr) (b : Byte) : oneByte k [b] = k b := rfl

@[simp] theorem decodeFrame_sync (bs : List Byte) :
    decodeFrame .sync bs = if bs = syncBytes then .ok .sync else .error .fixedBits := rfl

@[simp] theorem decodeFrame_start (bs : List Byte) :
    decodeFrame .start bs = if bs = [startByte] then .ok .start else .error .fixedBits := rfl

@[simp] theorem decodeFrame_endMark (bs : List Byte) :
    decodeFrame .endMark bs = if bs = [endByte] then .ok .endMark else .error .fixedBits := rfl

@[simp] theorem decodeFrame_header (d s t a st o g : Byte) :
    decodeFrame .header [d, s, t, a, st, o, g] =
      if [d, s, t, a, st, o, g].all highBit then .ok (.header d s t a st o g) else .error .fixedBits := rfl

@[simp] theorem decodeFrame_counts (o g : Byte) :
    decodeFrame .counts [o, g] =
      if !(highBit o && highBit g) then .error .fixedBits
      else if (o.setWidth 7).toNat ≤ 6 then .ok (.counts (o.setWidth 7) (g.setWidth 7))
      else .error .oddCount := rfl

@[simp] theorem decodeFrame_oddHeader (b : Byte) :
    decodeFrame .oddHeader [b] =
      if highBit b && !b.getLsbD 0 then .ok (.oddHeader (b.extractLsb' 1 6)) else .error .fixedBits := rfl

@[simp] theorem decodeFrame_groupHeader (b : Byte) :
    decodeFrame .groupHeader [b] = if highBit b then .ok (.groupHeader (b.setWidth 7)) else .error .fixedBits := rfl

@[simp] theorem decodeFrame_stuffed (b : Byte) :
    decodeFrame .stuffed [b] = if highBit b then .ok (.stuffedByte (b.setWidth 7)) else .error .fixedBits := rfl

@[simp] theorem decodeFrame_chk1 (b : Byte) :
    decodeFrame .chk1 [b] = if b &&& 0xAA#8 = 0xAA#8 then .ok (.chk1 (checkBits b)) else .error .fixedBits := rfl

@[simp] theorem decodeFrame_chk2 (b : Byte) :
    decodeFrame .chk2 [b] = if b &&& 0xAA#8 = 0xAA#8 then .ok (.chk2 (checkBits b)) else .error .fixedBits := rfl

/-- The odd header holds its six MSBs in bits 6 to 1. -/
theorem oddHeaderByte_fields (m : BitVec 6) :
    highBit (oddHeaderByte m) = true ∧ (oddHeaderByte m).getLsbD 0 = false
      ∧ (oddHeaderByte m).extractLsb' 1 6 = m := by revert m; decide

/-- The group header holds its seven MSBs in bits 6 to 0. -/
theorem groupHeaderByte_fields (m : BitVec 7) :
    highBit (groupHeaderByte m) = true ∧ (groupHeaderByte m).setWidth 7 = m := by revert m; decide

/-- A count byte holds its count in bits 6 to 0. -/
theorem countByte_fields (c : BitVec 7) : highBit (countByte c) = true ∧ (countByte c).setWidth 7 = c := by
  revert c; decide

/-- A stuffed byte holds the data's low seven bits. -/
theorem stuffedDataByte_fields (d : BitVec 7) :
    highBit (stuffedDataByte d) = true ∧ (stuffedDataByte d).setWidth 7 = d := by revert d; decide

/-- A trailer byte holds its four checksum bits. -/
theorem checkByte_fields (c : BitVec 4) : checkByte c &&& 0xAA#8 = 0xAA#8 ∧ checkBits (checkByte c) = c := by
  revert c; decide

end Sys2Proof
end

