-- ==== Sys2Proof/Laws/State.lean ====
section
/-! SUPPORT. What each named update of the state does to each field: one lemma per field per update. A field whose new
value depends on a case has no lemma here; its update has one of its own in Laws/Ops.lean. -/

namespace Sys2Proof.Machine

/-! ### raise -/

@[simp] theorem raise_params (e : Err) (s : State) : (raise e s).params = s.params := rfl
@[simp] theorem raise_eng (e : Err) (s : State) : (raise e s).eng = s.eng := rfl
@[simp] theorem raise_ack (e : Err) (s : State) : (raise e s).ack = s.ack := rfl
@[simp] theorem raise_staged (e : Err) (s : State) : (raise e s).staged = s.staged := rfl
@[simp] theorem raise_mb (e : Err) (s : State) : (raise e s).mb = s.mb := rfl
@[simp] theorem raise_mbLen (e : Err) (s : State) : (raise e s).mbLen = s.mbLen := rfl
@[simp] theorem raise_mbLock (e : Err) (s : State) : (raise e s).mbLock = s.mbLock := rfl
@[simp] theorem raise_curKind (e : Err) (s : State) : (raise e s).curKind = s.curKind := rfl
@[simp] theorem raise_curSlot (e : Err) (s : State) : (raise e s).curSlot = s.curSlot := rfl
@[simp] theorem raise_curDec (e : Err) (s : State) : (raise e s).curDec = s.curDec := rfl
@[simp] theorem raise_curStatus (e : Err) (s : State) : (raise e s).curStatus = s.curStatus := rfl
@[simp] theorem raise_wT0 (e : Err) (s : State) : (raise e s).wT0 = s.wT0 := rfl
@[simp] theorem raise_wLimit (e : Err) (s : State) : (raise e s).wLimit = s.wLimit := rfl
@[simp] theorem raise_trState (e : Err) (s : State) : (raise e s).trState = s.trState := rfl
@[simp] theorem raise_trT0 (e : Err) (s : State) : (raise e s).trT0 = s.trT0 := rfl
@[simp] theorem raise_trLimit (e : Err) (s : State) : (raise e s).trLimit = s.trLimit := rfl
@[simp] theorem raise_trResult (e : Err) (s : State) : (raise e s).trResult = s.trResult := rfl
@[simp] theorem raise_txBuf (e : Err) (s : State) : (raise e s).txBuf = s.txBuf := rfl
@[simp] theorem raise_txLen (e : Err) (s : State) : (raise e s).txLen = s.txLen := rfl
@[simp] theorem raise_rxBuf (e : Err) (s : State) : (raise e s).rxBuf = s.rxBuf := rfl
@[simp] theorem raise_rxLen (e : Err) (s : State) : (raise e s).rxLen = s.rxLen := rfl
@[simp] theorem raise_rxLock (e : Err) (s : State) : (raise e s).rxLock = s.rxLock := rfl
@[simp] theorem raise_rxExpect (e : Err) (s : State) : (raise e s).rxExpect = s.rxExpect := rfl
@[simp] theorem raise_isrState (e : Err) (s : State) : (raise e s).isrState = s.isrState := rfl
@[simp] theorem raise_isrT0 (e : Err) (s : State) : (raise e s).isrT0 = s.isrT0 := rfl
@[simp] theorem raise_irqPend (e : Err) (s : State) : (raise e s).irqPend = s.irqPend := rfl
@[simp] theorem raise_prevPhase (e : Err) (s : State) : (raise e s).prevPhase = s.prevPhase := rfl
@[simp] theorem raise_dev (e : Err) (s : State) : (raise e s).dev = s.dev := rfl
@[simp] theorem raise_chain (e : Err) (s : State) : (raise e s).chain = s.chain := rfl
@[simp] theorem raise_lastChk (e : Err) (s : State) : (raise e s).lastChk = s.lastChk := rfl
@[simp] theorem raise_lastChkV (e : Err) (s : State) : (raise e s).lastChkV = s.lastChkV := rfl
@[simp] theorem raise_lastErr (e : Err) (s : State) : (raise e s).lastErr = e.code := rfl
@[simp] theorem raise_errFlags (e : Err) (s : State) : (raise e s).errFlags = s.errFlags ||| (1#16 <<< e.num) := rfl
@[simp] theorem raise_timer (e : Err) (s : State) : (raise e s).timer = s.timer := rfl
@[simp] theorem raise_dispValid (e : Err) (s : State) : (raise e s).dispValid = s.dispValid := rfl
@[simp] theorem raise_dispSlot (e : Err) (s : State) : (raise e s).dispSlot = s.dispSlot := rfl
@[simp] theorem raise_dispKind (e : Err) (s : State) : (raise e s).dispKind = s.dispKind := rfl
@[simp] theorem raise_dispCap (e : Err) (s : State) : (raise e s).dispCap = s.dispCap := rfl
@[simp] theorem raise_dispCmd (e : Err) (s : State) : (raise e s).dispCmd = s.dispCmd := rfl
@[simp] theorem raise_phase (e : Err) (s : State) : (raise e s).phase = s.phase := rfl
@[simp] theorem raise_reqPin (e : Err) (s : State) : (raise e s).reqPin = s.reqPin := rfl
@[simp] theorem raise_txBits (e : Err) (s : State) : (raise e s).txBits = s.txBits := rfl
@[simp] theorem raise_hostLine (e : Err) (s : State) : (raise e s).hostLine = s.hostLine := rfl
@[simp] theorem raise_samples (e : Err) (s : State) : (raise e s).samples = s.samples := rfl
@[simp] theorem raise_reqApp (e : Err) (s : State) : (raise e s).reqApp = s.reqApp := rfl
@[simp] theorem raise_reqDev (e : Err) (s : State) : (raise e s).reqDev = s.reqDev := rfl
@[simp] theorem raise_busy (e : Err) (s : State) : (raise e s).busy = s.busy := rfl
@[simp] theorem raise_replyApp (e : Err) (s : State) : (raise e s).replyApp = s.replyApp := rfl
@[simp] theorem raise_replyDev (e : Err) (s : State) : (raise e s).replyDev = s.replyDev := rfl
@[simp] theorem raise_csrOut (e : Err) (s : State) : (raise e s).csrOut = s.csrOut := rfl
@[simp] theorem raise_refusedOp (e : Err) (s : State) : (raise e s).refusedOp = s.refusedOp := rfl
@[simp] theorem raise_script (e : Err) (s : State) : (raise e s).script = s.script := rfl
@[simp] theorem raise_turn (e : Err) (s : State) : (raise e s).turn = s.turn := rfl
@[simp] theorem raise_draws (e : Err) (s : State) : (raise e s).draws = s.draws := rfl
@[simp] theorem raise_hostTimeouts (e : Err) (s : State) : (raise e s).hostTimeouts = s.hostTimeouts := rfl
@[simp] theorem raise_txChecked (e : Err) (s : State) : (raise e s).txChecked = s.txChecked := rfl
@[simp] theorem raise_expectFailed (e : Err) (s : State) : (raise e s).expectFailed = s.expectFailed := rfl

/-! ### emit -/

@[simp] theorem emit_params (b : List Bool) (s : State) : (emit b s).params = s.params := rfl
@[simp] theorem emit_eng (b : List Bool) (s : State) : (emit b s).eng = s.eng := rfl
@[simp] theorem emit_ack (b : List Bool) (s : State) : (emit b s).ack = s.ack := rfl
@[simp] theorem emit_staged (b : List Bool) (s : State) : (emit b s).staged = s.staged := rfl
@[simp] theorem emit_mb (b : List Bool) (s : State) : (emit b s).mb = s.mb := rfl
@[simp] theorem emit_mbLen (b : List Bool) (s : State) : (emit b s).mbLen = s.mbLen := rfl
@[simp] theorem emit_mbLock (b : List Bool) (s : State) : (emit b s).mbLock = s.mbLock := rfl
@[simp] theorem emit_curKind (b : List Bool) (s : State) : (emit b s).curKind = s.curKind := rfl
@[simp] theorem emit_curSlot (b : List Bool) (s : State) : (emit b s).curSlot = s.curSlot := rfl
@[simp] theorem emit_curDec (b : List Bool) (s : State) : (emit b s).curDec = s.curDec := rfl
@[simp] theorem emit_curStatus (b : List Bool) (s : State) : (emit b s).curStatus = s.curStatus := rfl
@[simp] theorem emit_wT0 (b : List Bool) (s : State) : (emit b s).wT0 = s.wT0 := rfl
@[simp] theorem emit_wLimit (b : List Bool) (s : State) : (emit b s).wLimit = s.wLimit := rfl
@[simp] theorem emit_trState (b : List Bool) (s : State) : (emit b s).trState = s.trState := rfl
@[simp] theorem emit_trT0 (b : List Bool) (s : State) : (emit b s).trT0 = s.trT0 := rfl
@[simp] theorem emit_trLimit (b : List Bool) (s : State) : (emit b s).trLimit = s.trLimit := rfl
@[simp] theorem emit_trResult (b : List Bool) (s : State) : (emit b s).trResult = s.trResult := rfl
@[simp] theorem emit_txBuf (b : List Bool) (s : State) : (emit b s).txBuf = s.txBuf := rfl
@[simp] theorem emit_txLen (b : List Bool) (s : State) : (emit b s).txLen = s.txLen := rfl
@[simp] theorem emit_rxBuf (b : List Bool) (s : State) : (emit b s).rxBuf = s.rxBuf := rfl
@[simp] theorem emit_rxLen (b : List Bool) (s : State) : (emit b s).rxLen = s.rxLen := rfl
@[simp] theorem emit_rxLock (b : List Bool) (s : State) : (emit b s).rxLock = s.rxLock := rfl
@[simp] theorem emit_rxExpect (b : List Bool) (s : State) : (emit b s).rxExpect = s.rxExpect := rfl
@[simp] theorem emit_isrState (b : List Bool) (s : State) : (emit b s).isrState = s.isrState := rfl
@[simp] theorem emit_isrT0 (b : List Bool) (s : State) : (emit b s).isrT0 = s.isrT0 := rfl
@[simp] theorem emit_irqPend (b : List Bool) (s : State) : (emit b s).irqPend = s.irqPend := rfl
@[simp] theorem emit_prevPhase (b : List Bool) (s : State) : (emit b s).prevPhase = s.prevPhase := rfl
@[simp] theorem emit_dev (b : List Bool) (s : State) : (emit b s).dev = s.dev := rfl
@[simp] theorem emit_chain (b : List Bool) (s : State) : (emit b s).chain = s.chain := rfl
@[simp] theorem emit_lastChk (b : List Bool) (s : State) : (emit b s).lastChk = s.lastChk := rfl
@[simp] theorem emit_lastChkV (b : List Bool) (s : State) : (emit b s).lastChkV = s.lastChkV := rfl
@[simp] theorem emit_lastErr (b : List Bool) (s : State) : (emit b s).lastErr = s.lastErr := rfl
@[simp] theorem emit_errFlags (b : List Bool) (s : State) : (emit b s).errFlags = s.errFlags := rfl
@[simp] theorem emit_timer (b : List Bool) (s : State) : (emit b s).timer = s.timer := rfl
@[simp] theorem emit_dispValid (b : List Bool) (s : State) : (emit b s).dispValid = s.dispValid := rfl
@[simp] theorem emit_dispSlot (b : List Bool) (s : State) : (emit b s).dispSlot = s.dispSlot := rfl
@[simp] theorem emit_dispKind (b : List Bool) (s : State) : (emit b s).dispKind = s.dispKind := rfl
@[simp] theorem emit_dispCap (b : List Bool) (s : State) : (emit b s).dispCap = s.dispCap := rfl
@[simp] theorem emit_dispCmd (b : List Bool) (s : State) : (emit b s).dispCmd = s.dispCmd := rfl
@[simp] theorem emit_phase (b : List Bool) (s : State) : (emit b s).phase = s.phase := rfl
@[simp] theorem emit_reqPin (b : List Bool) (s : State) : (emit b s).reqPin = s.reqPin := rfl
@[simp] theorem emit_txBits (b : List Bool) (s : State) : (emit b s).txBits = s.txBits ++ b := rfl
@[simp] theorem emit_hostLine (b : List Bool) (s : State) : (emit b s).hostLine = s.hostLine := rfl
@[simp] theorem emit_samples (b : List Bool) (s : State) : (emit b s).samples = s.samples := rfl
@[simp] theorem emit_reqApp (b : List Bool) (s : State) : (emit b s).reqApp = s.reqApp := rfl
@[simp] theorem emit_reqDev (b : List Bool) (s : State) : (emit b s).reqDev = s.reqDev := rfl
@[simp] theorem emit_busy (b : List Bool) (s : State) : (emit b s).busy = s.busy := rfl
@[simp] theorem emit_replyApp (b : List Bool) (s : State) : (emit b s).replyApp = s.replyApp := rfl
@[simp] theorem emit_replyDev (b : List Bool) (s : State) : (emit b s).replyDev = s.replyDev := rfl
@[simp] theorem emit_csrOut (b : List Bool) (s : State) : (emit b s).csrOut = s.csrOut := rfl
@[simp] theorem emit_refusedOp (b : List Bool) (s : State) : (emit b s).refusedOp = s.refusedOp := rfl
@[simp] theorem emit_script (b : List Bool) (s : State) : (emit b s).script = s.script := rfl
@[simp] theorem emit_turn (b : List Bool) (s : State) : (emit b s).turn = s.turn := rfl
@[simp] theorem emit_draws (b : List Bool) (s : State) : (emit b s).draws = s.draws := rfl
@[simp] theorem emit_hostTimeouts (b : List Bool) (s : State) : (emit b s).hostTimeouts = s.hostTimeouts := rfl
@[simp] theorem emit_txChecked (b : List Bool) (s : State) : (emit b s).txChecked = s.txChecked := rfl
@[simp] theorem emit_expectFailed (b : List Bool) (s : State) : (emit b s).expectFailed = s.expectFailed := rfl

/-! ### startRecv -/

@[simp] theorem startRecv_params (n : Nat) (s : State) : (startRecv n s).params = s.params := rfl
@[simp] theorem startRecv_eng (n : Nat) (s : State) : (startRecv n s).eng = s.eng := rfl
@[simp] theorem startRecv_ack (n : Nat) (s : State) : (startRecv n s).ack = false := rfl
@[simp] theorem startRecv_staged (n : Nat) (s : State) : (startRecv n s).staged = s.staged := rfl
@[simp] theorem startRecv_mb (n : Nat) (s : State) : (startRecv n s).mb = s.mb := rfl
@[simp] theorem startRecv_mbLen (n : Nat) (s : State) : (startRecv n s).mbLen = s.mbLen := rfl
@[simp] theorem startRecv_mbLock (n : Nat) (s : State) : (startRecv n s).mbLock = s.mbLock := rfl
@[simp] theorem startRecv_curKind (n : Nat) (s : State) : (startRecv n s).curKind = s.curKind := rfl
@[simp] theorem startRecv_curSlot (n : Nat) (s : State) : (startRecv n s).curSlot = s.curSlot := rfl
@[simp] theorem startRecv_curDec (n : Nat) (s : State) : (startRecv n s).curDec = s.curDec := rfl
@[simp] theorem startRecv_curStatus (n : Nat) (s : State) : (startRecv n s).curStatus = s.curStatus := rfl
@[simp] theorem startRecv_wT0 (n : Nat) (s : State) : (startRecv n s).wT0 = s.wT0 := rfl
@[simp] theorem startRecv_wLimit (n : Nat) (s : State) : (startRecv n s).wLimit = s.wLimit := rfl
@[simp] theorem startRecv_trState (n : Nat) (s : State) : (startRecv n s).trState = .rWaitRise := rfl
@[simp] theorem startRecv_trT0 (n : Nat) (s : State) : (startRecv n s).trT0 = s.timer := rfl
@[simp] theorem startRecv_trLimit (n : Nat) (s : State) : (startRecv n s).trLimit = s.params.tRecvReqRise := rfl
@[simp] theorem startRecv_trResult (n : Nat) (s : State) : (startRecv n s).trResult = s.trResult := rfl
@[simp] theorem startRecv_txBuf (n : Nat) (s : State) : (startRecv n s).txBuf = s.txBuf := rfl
@[simp] theorem startRecv_txLen (n : Nat) (s : State) : (startRecv n s).txLen = s.txLen := rfl
@[simp] theorem startRecv_rxBuf (n : Nat) (s : State) : (startRecv n s).rxBuf = s.rxBuf := rfl
@[simp] theorem startRecv_rxLen (n : Nat) (s : State) : (startRecv n s).rxLen = s.rxLen := rfl
@[simp] theorem startRecv_rxLock (n : Nat) (s : State) : (startRecv n s).rxLock = s.rxLock := rfl
@[simp] theorem startRecv_rxExpect (n : Nat) (s : State) : (startRecv n s).rxExpect = n := rfl
@[simp] theorem startRecv_isrState (n : Nat) (s : State) : (startRecv n s).isrState = s.isrState := rfl
@[simp] theorem startRecv_isrT0 (n : Nat) (s : State) : (startRecv n s).isrT0 = s.isrT0 := rfl
@[simp] theorem startRecv_irqPend (n : Nat) (s : State) : (startRecv n s).irqPend = s.irqPend := rfl
@[simp] theorem startRecv_prevPhase (n : Nat) (s : State) : (startRecv n s).prevPhase = s.prevPhase := rfl
@[simp] theorem startRecv_dev (n : Nat) (s : State) : (startRecv n s).dev = s.dev := rfl
@[simp] theorem startRecv_chain (n : Nat) (s : State) : (startRecv n s).chain = s.chain := rfl
@[simp] theorem startRecv_lastChk (n : Nat) (s : State) : (startRecv n s).lastChk = s.lastChk := rfl
@[simp] theorem startRecv_lastChkV (n : Nat) (s : State) : (startRecv n s).lastChkV = s.lastChkV := rfl
@[simp] theorem startRecv_lastErr (n : Nat) (s : State) : (startRecv n s).lastErr = s.lastErr := rfl
@[simp] theorem startRecv_errFlags (n : Nat) (s : State) : (startRecv n s).errFlags = s.errFlags := rfl
@[simp] theorem startRecv_timer (n : Nat) (s : State) : (startRecv n s).timer = s.timer := rfl
@[simp] theorem startRecv_dispValid (n : Nat) (s : State) : (startRecv n s).dispValid = s.dispValid := rfl
@[simp] theorem startRecv_dispSlot (n : Nat) (s : State) : (startRecv n s).dispSlot = s.dispSlot := rfl
@[simp] theorem startRecv_dispKind (n : Nat) (s : State) : (startRecv n s).dispKind = s.dispKind := rfl
@[simp] theorem startRecv_dispCap (n : Nat) (s : State) : (startRecv n s).dispCap = s.dispCap := rfl
@[simp] theorem startRecv_dispCmd (n : Nat) (s : State) : (startRecv n s).dispCmd = s.dispCmd := rfl
@[simp] theorem startRecv_phase (n : Nat) (s : State) : (startRecv n s).phase = s.phase := rfl
@[simp] theorem startRecv_reqPin (n : Nat) (s : State) : (startRecv n s).reqPin = s.reqPin := rfl
@[simp] theorem startRecv_txBits (n : Nat) (s : State) : (startRecv n s).txBits = s.txBits := rfl
@[simp] theorem startRecv_hostLine (n : Nat) (s : State) : (startRecv n s).hostLine = s.hostLine := rfl
@[simp] theorem startRecv_samples (n : Nat) (s : State) : (startRecv n s).samples = s.samples := rfl
@[simp] theorem startRecv_reqApp (n : Nat) (s : State) : (startRecv n s).reqApp = s.reqApp := rfl
@[simp] theorem startRecv_reqDev (n : Nat) (s : State) : (startRecv n s).reqDev = s.reqDev := rfl
@[simp] theorem startRecv_busy (n : Nat) (s : State) : (startRecv n s).busy = s.busy := rfl
@[simp] theorem startRecv_replyApp (n : Nat) (s : State) : (startRecv n s).replyApp = s.replyApp := rfl
@[simp] theorem startRecv_replyDev (n : Nat) (s : State) : (startRecv n s).replyDev = s.replyDev := rfl
@[simp] theorem startRecv_csrOut (n : Nat) (s : State) : (startRecv n s).csrOut = s.csrOut := rfl
@[simp] theorem startRecv_refusedOp (n : Nat) (s : State) : (startRecv n s).refusedOp = s.refusedOp := rfl
@[simp] theorem startRecv_script (n : Nat) (s : State) : (startRecv n s).script = s.script := rfl
@[simp] theorem startRecv_turn (n : Nat) (s : State) : (startRecv n s).turn = s.turn := rfl
@[simp] theorem startRecv_draws (n : Nat) (s : State) : (startRecv n s).draws = s.draws := rfl
@[simp] theorem startRecv_hostTimeouts (n : Nat) (s : State) : (startRecv n s).hostTimeouts = s.hostTimeouts := rfl
@[simp] theorem startRecv_txChecked (n : Nat) (s : State) : (startRecv n s).txChecked = s.txChecked := rfl
@[simp] theorem startRecv_expectFailed (n : Nat) (s : State) : (startRecv n s).expectFailed = s.expectFailed := rfl

/-! ### setDev -/

@[simp] theorem setDev_params (i : Nat) (d : Device) (s : State) : (setDev i d s).params = s.params := rfl
@[simp] theorem setDev_eng (i : Nat) (d : Device) (s : State) : (setDev i d s).eng = s.eng := rfl
@[simp] theorem setDev_ack (i : Nat) (d : Device) (s : State) : (setDev i d s).ack = s.ack := rfl
@[simp] theorem setDev_staged (i : Nat) (d : Device) (s : State) : (setDev i d s).staged = s.staged := rfl
@[simp] theorem setDev_mb (i : Nat) (d : Device) (s : State) : (setDev i d s).mb = s.mb := rfl
@[simp] theorem setDev_mbLen (i : Nat) (d : Device) (s : State) : (setDev i d s).mbLen = s.mbLen := rfl
@[simp] theorem setDev_mbLock (i : Nat) (d : Device) (s : State) : (setDev i d s).mbLock = s.mbLock := rfl
@[simp] theorem setDev_curKind (i : Nat) (d : Device) (s : State) : (setDev i d s).curKind = s.curKind := rfl
@[simp] theorem setDev_curSlot (i : Nat) (d : Device) (s : State) : (setDev i d s).curSlot = s.curSlot := rfl
@[simp] theorem setDev_curDec (i : Nat) (d : Device) (s : State) : (setDev i d s).curDec = s.curDec := rfl
@[simp] theorem setDev_curStatus (i : Nat) (d : Device) (s : State) : (setDev i d s).curStatus = s.curStatus := rfl
@[simp] theorem setDev_wT0 (i : Nat) (d : Device) (s : State) : (setDev i d s).wT0 = s.wT0 := rfl
@[simp] theorem setDev_wLimit (i : Nat) (d : Device) (s : State) : (setDev i d s).wLimit = s.wLimit := rfl
@[simp] theorem setDev_trState (i : Nat) (d : Device) (s : State) : (setDev i d s).trState = s.trState := rfl
@[simp] theorem setDev_trT0 (i : Nat) (d : Device) (s : State) : (setDev i d s).trT0 = s.trT0 := rfl
@[simp] theorem setDev_trLimit (i : Nat) (d : Device) (s : State) : (setDev i d s).trLimit = s.trLimit := rfl
@[simp] theorem setDev_trResult (i : Nat) (d : Device) (s : State) : (setDev i d s).trResult = s.trResult := rfl
@[simp] theorem setDev_txBuf (i : Nat) (d : Device) (s : State) : (setDev i d s).txBuf = s.txBuf := rfl
@[simp] theorem setDev_txLen (i : Nat) (d : Device) (s : State) : (setDev i d s).txLen = s.txLen := rfl
@[simp] theorem setDev_rxBuf (i : Nat) (d : Device) (s : State) : (setDev i d s).rxBuf = s.rxBuf := rfl
@[simp] theorem setDev_rxLen (i : Nat) (d : Device) (s : State) : (setDev i d s).rxLen = s.rxLen := rfl
@[simp] theorem setDev_rxLock (i : Nat) (d : Device) (s : State) : (setDev i d s).rxLock = s.rxLock := rfl
@[simp] theorem setDev_rxExpect (i : Nat) (d : Device) (s : State) : (setDev i d s).rxExpect = s.rxExpect := rfl
@[simp] theorem setDev_isrState (i : Nat) (d : Device) (s : State) : (setDev i d s).isrState = s.isrState := rfl
@[simp] theorem setDev_isrT0 (i : Nat) (d : Device) (s : State) : (setDev i d s).isrT0 = s.isrT0 := rfl
@[simp] theorem setDev_irqPend (i : Nat) (d : Device) (s : State) : (setDev i d s).irqPend = s.irqPend := rfl
@[simp] theorem setDev_prevPhase (i : Nat) (d : Device) (s : State) : (setDev i d s).prevPhase = s.prevPhase := rfl
@[simp] theorem setDev_dev (i : Nat) (d : Device) (s : State) : (setDev i d s).dev = s.dev.set i d := rfl
@[simp] theorem setDev_chain (i : Nat) (d : Device) (s : State) : (setDev i d s).chain = s.chain := rfl
@[simp] theorem setDev_lastChk (i : Nat) (d : Device) (s : State) : (setDev i d s).lastChk = s.lastChk := rfl
@[simp] theorem setDev_lastChkV (i : Nat) (d : Device) (s : State) : (setDev i d s).lastChkV = s.lastChkV := rfl
@[simp] theorem setDev_lastErr (i : Nat) (d : Device) (s : State) : (setDev i d s).lastErr = s.lastErr := rfl
@[simp] theorem setDev_errFlags (i : Nat) (d : Device) (s : State) : (setDev i d s).errFlags = s.errFlags := rfl
@[simp] theorem setDev_timer (i : Nat) (d : Device) (s : State) : (setDev i d s).timer = s.timer := rfl
@[simp] theorem setDev_dispValid (i : Nat) (d : Device) (s : State) : (setDev i d s).dispValid = s.dispValid := rfl
@[simp] theorem setDev_dispSlot (i : Nat) (d : Device) (s : State) : (setDev i d s).dispSlot = s.dispSlot := rfl
@[simp] theorem setDev_dispKind (i : Nat) (d : Device) (s : State) : (setDev i d s).dispKind = s.dispKind := rfl
@[simp] theorem setDev_dispCap (i : Nat) (d : Device) (s : State) : (setDev i d s).dispCap = s.dispCap := rfl
@[simp] theorem setDev_dispCmd (i : Nat) (d : Device) (s : State) : (setDev i d s).dispCmd = s.dispCmd := rfl
@[simp] theorem setDev_phase (i : Nat) (d : Device) (s : State) : (setDev i d s).phase = s.phase := rfl
@[simp] theorem setDev_reqPin (i : Nat) (d : Device) (s : State) : (setDev i d s).reqPin = s.reqPin := rfl
@[simp] theorem setDev_txBits (i : Nat) (d : Device) (s : State) : (setDev i d s).txBits = s.txBits := rfl
@[simp] theorem setDev_hostLine (i : Nat) (d : Device) (s : State) : (setDev i d s).hostLine = s.hostLine := rfl
@[simp] theorem setDev_samples (i : Nat) (d : Device) (s : State) : (setDev i d s).samples = s.samples := rfl
@[simp] theorem setDev_reqApp (i : Nat) (d : Device) (s : State) : (setDev i d s).reqApp = s.reqApp := rfl
@[simp] theorem setDev_reqDev (i : Nat) (d : Device) (s : State) : (setDev i d s).reqDev = s.reqDev := rfl
@[simp] theorem setDev_busy (i : Nat) (d : Device) (s : State) : (setDev i d s).busy = s.busy := rfl
@[simp] theorem setDev_replyApp (i : Nat) (d : Device) (s : State) : (setDev i d s).replyApp = s.replyApp := rfl
@[simp] theorem setDev_replyDev (i : Nat) (d : Device) (s : State) : (setDev i d s).replyDev = s.replyDev := rfl
@[simp] theorem setDev_csrOut (i : Nat) (d : Device) (s : State) : (setDev i d s).csrOut = s.csrOut := rfl
@[simp] theorem setDev_refusedOp (i : Nat) (d : Device) (s : State) : (setDev i d s).refusedOp = s.refusedOp := rfl
@[simp] theorem setDev_script (i : Nat) (d : Device) (s : State) : (setDev i d s).script = s.script := rfl
@[simp] theorem setDev_turn (i : Nat) (d : Device) (s : State) : (setDev i d s).turn = s.turn := rfl
@[simp] theorem setDev_draws (i : Nat) (d : Device) (s : State) : (setDev i d s).draws = s.draws := rfl
@[simp] theorem setDev_hostTimeouts (i : Nat) (d : Device) (s : State) : (setDev i d s).hostTimeouts = s.hostTimeouts := rfl
@[simp] theorem setDev_txChecked (i : Nat) (d : Device) (s : State) : (setDev i d s).txChecked = s.txChecked := rfl
@[simp] theorem setDev_expectFailed (i : Nat) (d : Device) (s : State) : (setDev i d s).expectFailed = s.expectFailed := rfl

/-! ### returnInterrupt -/

@[simp] theorem returnInterrupt_params (s : State) : (returnInterrupt s).params = s.params := rfl
@[simp] theorem returnInterrupt_eng (s : State) : (returnInterrupt s).eng = s.eng := rfl
@[simp] theorem returnInterrupt_ack (s : State) : (returnInterrupt s).ack = s.ack := rfl
@[simp] theorem returnInterrupt_staged (s : State) : (returnInterrupt s).staged = s.staged := rfl
@[simp] theorem returnInterrupt_mb (s : State) : (returnInterrupt s).mb = s.mb := rfl
@[simp] theorem returnInterrupt_mbLen (s : State) : (returnInterrupt s).mbLen = s.mbLen := rfl
@[simp] theorem returnInterrupt_mbLock (s : State) : (returnInterrupt s).mbLock = s.mbLock := rfl
@[simp] theorem returnInterrupt_curKind (s : State) : (returnInterrupt s).curKind = s.curKind := rfl
@[simp] theorem returnInterrupt_curSlot (s : State) : (returnInterrupt s).curSlot = s.curSlot := rfl
@[simp] theorem returnInterrupt_curDec (s : State) : (returnInterrupt s).curDec = s.curDec := rfl
@[simp] theorem returnInterrupt_curStatus (s : State) : (returnInterrupt s).curStatus = s.curStatus := rfl
@[simp] theorem returnInterrupt_wT0 (s : State) : (returnInterrupt s).wT0 = s.wT0 := rfl
@[simp] theorem returnInterrupt_wLimit (s : State) : (returnInterrupt s).wLimit = s.wLimit := rfl
@[simp] theorem returnInterrupt_trState (s : State) : (returnInterrupt s).trState = s.trState := rfl
@[simp] theorem returnInterrupt_trT0 (s : State) : (returnInterrupt s).trT0 = s.trT0 := rfl
@[simp] theorem returnInterrupt_trLimit (s : State) : (returnInterrupt s).trLimit = s.trLimit := rfl
@[simp] theorem returnInterrupt_trResult (s : State) : (returnInterrupt s).trResult = s.trResult := rfl
@[simp] theorem returnInterrupt_txBuf (s : State) : (returnInterrupt s).txBuf = s.txBuf := rfl
@[simp] theorem returnInterrupt_txLen (s : State) : (returnInterrupt s).txLen = s.txLen := rfl
@[simp] theorem returnInterrupt_rxBuf (s : State) : (returnInterrupt s).rxBuf = s.rxBuf := rfl
@[simp] theorem returnInterrupt_rxLen (s : State) : (returnInterrupt s).rxLen = s.rxLen := rfl
@[simp] theorem returnInterrupt_rxLock (s : State) : (returnInterrupt s).rxLock = s.rxLock := rfl
@[simp] theorem returnInterrupt_rxExpect (s : State) : (returnInterrupt s).rxExpect = s.rxExpect := rfl
@[simp] theorem returnInterrupt_isrState (s : State) : (returnInterrupt s).isrState = .idle := rfl
@[simp] theorem returnInterrupt_isrT0 (s : State) : (returnInterrupt s).isrT0 = s.isrT0 := rfl
@[simp] theorem returnInterrupt_irqPend (s : State) : (returnInterrupt s).irqPend = s.irqPend := rfl
@[simp] theorem returnInterrupt_prevPhase (s : State) : (returnInterrupt s).prevPhase = s.prevPhase := rfl
@[simp] theorem returnInterrupt_dev (s : State) : (returnInterrupt s).dev = s.dev := rfl
@[simp] theorem returnInterrupt_chain (s : State) : (returnInterrupt s).chain = s.chain := rfl
@[simp] theorem returnInterrupt_lastChk (s : State) : (returnInterrupt s).lastChk = s.lastChk := rfl
@[simp] theorem returnInterrupt_lastChkV (s : State) : (returnInterrupt s).lastChkV = s.lastChkV := rfl
@[simp] theorem returnInterrupt_lastErr (s : State) : (returnInterrupt s).lastErr = s.lastErr := rfl
@[simp] theorem returnInterrupt_errFlags (s : State) : (returnInterrupt s).errFlags = s.errFlags := rfl
@[simp] theorem returnInterrupt_timer (s : State) : (returnInterrupt s).timer = s.timer := rfl
@[simp] theorem returnInterrupt_dispValid (s : State) : (returnInterrupt s).dispValid = s.dispValid := rfl
@[simp] theorem returnInterrupt_dispSlot (s : State) : (returnInterrupt s).dispSlot = s.dispSlot := rfl
@[simp] theorem returnInterrupt_dispKind (s : State) : (returnInterrupt s).dispKind = s.dispKind := rfl
@[simp] theorem returnInterrupt_dispCap (s : State) : (returnInterrupt s).dispCap = s.dispCap := rfl
@[simp] theorem returnInterrupt_dispCmd (s : State) : (returnInterrupt s).dispCmd = s.dispCmd := rfl
@[simp] theorem returnInterrupt_phase (s : State) : (returnInterrupt s).phase = s.phase := rfl
@[simp] theorem returnInterrupt_reqPin (s : State) : (returnInterrupt s).reqPin = s.reqPin := rfl
@[simp] theorem returnInterrupt_txBits (s : State) : (returnInterrupt s).txBits = s.txBits := rfl
@[simp] theorem returnInterrupt_hostLine (s : State) : (returnInterrupt s).hostLine = s.hostLine := rfl
@[simp] theorem returnInterrupt_samples (s : State) : (returnInterrupt s).samples = s.samples := rfl
@[simp] theorem returnInterrupt_reqApp (s : State) : (returnInterrupt s).reqApp = s.reqApp := rfl
@[simp] theorem returnInterrupt_reqDev (s : State) : (returnInterrupt s).reqDev = s.reqDev := rfl
@[simp] theorem returnInterrupt_busy (s : State) : (returnInterrupt s).busy = s.busy := rfl
@[simp] theorem returnInterrupt_replyApp (s : State) : (returnInterrupt s).replyApp = s.replyApp := rfl
@[simp] theorem returnInterrupt_replyDev (s : State) : (returnInterrupt s).replyDev = s.replyDev := rfl
@[simp] theorem returnInterrupt_csrOut (s : State) : (returnInterrupt s).csrOut = s.csrOut := rfl
@[simp] theorem returnInterrupt_refusedOp (s : State) : (returnInterrupt s).refusedOp = s.refusedOp := rfl
@[simp] theorem returnInterrupt_script (s : State) : (returnInterrupt s).script = s.script := rfl
@[simp] theorem returnInterrupt_turn (s : State) : (returnInterrupt s).turn = s.turn := rfl
@[simp] theorem returnInterrupt_draws (s : State) : (returnInterrupt s).draws = s.draws := rfl
@[simp] theorem returnInterrupt_hostTimeouts (s : State) : (returnInterrupt s).hostTimeouts = s.hostTimeouts := rfl
@[simp] theorem returnInterrupt_txChecked (s : State) : (returnInterrupt s).txChecked = s.txChecked := rfl
@[simp] theorem returnInterrupt_expectFailed (s : State) : (returnInterrupt s).expectFailed = s.expectFailed := rfl

/-! ### resetBus -/

@[simp] theorem resetBus_params (s : State) : (resetBus s).params = s.params := rfl
@[simp] theorem resetBus_eng (s : State) : (resetBus s).eng = .reset := rfl
@[simp] theorem resetBus_ack (s : State) : (resetBus s).ack = false := rfl
@[simp] theorem resetBus_staged (s : State) : (resetBus s).staged = false := rfl
@[simp] theorem resetBus_mb (s : State) : (resetBus s).mb = s.mb := rfl
@[simp] theorem resetBus_mbLen (s : State) : (resetBus s).mbLen = s.mbLen := rfl
@[simp] theorem resetBus_mbLock (s : State) : (resetBus s).mbLock = s.mbLock := rfl
@[simp] theorem resetBus_curKind (s : State) : (resetBus s).curKind = .none := rfl
@[simp] theorem resetBus_curSlot (s : State) : (resetBus s).curSlot = s.curSlot := rfl
@[simp] theorem resetBus_curDec (s : State) : (resetBus s).curDec = s.curDec := rfl
@[simp] theorem resetBus_curStatus (s : State) : (resetBus s).curStatus = s.curStatus := rfl
@[simp] theorem resetBus_wT0 (s : State) : (resetBus s).wT0 = s.wT0 := rfl
@[simp] theorem resetBus_wLimit (s : State) : (resetBus s).wLimit = s.wLimit := rfl
@[simp] theorem resetBus_trState (s : State) : (resetBus s).trState = s.trState := rfl
@[simp] theorem resetBus_trT0 (s : State) : (resetBus s).trT0 = s.trT0 := rfl
@[simp] theorem resetBus_trLimit (s : State) : (resetBus s).trLimit = s.trLimit := rfl
@[simp] theorem resetBus_trResult (s : State) : (resetBus s).trResult = s.trResult := rfl
@[simp] theorem resetBus_txBuf (s : State) : (resetBus s).txBuf = s.txBuf := rfl
@[simp] theorem resetBus_txLen (s : State) : (resetBus s).txLen = s.txLen := rfl
@[simp] theorem resetBus_rxBuf (s : State) : (resetBus s).rxBuf = s.rxBuf := rfl
@[simp] theorem resetBus_rxLen (s : State) : (resetBus s).rxLen = s.rxLen := rfl
@[simp] theorem resetBus_rxLock (s : State) : (resetBus s).rxLock = s.rxLock := rfl
@[simp] theorem resetBus_rxExpect (s : State) : (resetBus s).rxExpect = s.rxExpect := rfl
@[simp] theorem resetBus_isrState (s : State) : (resetBus s).isrState = s.isrState := rfl
@[simp] theorem resetBus_isrT0 (s : State) : (resetBus s).isrT0 = s.isrT0 := rfl
@[simp] theorem resetBus_irqPend (s : State) : (resetBus s).irqPend = s.irqPend := rfl
@[simp] theorem resetBus_prevPhase (s : State) : (resetBus s).prevPhase = s.prevPhase := rfl
@[simp] theorem resetBus_dev (s : State) : (resetBus s).dev = s.dev.map (fun d => { d with addr := 0 }) := rfl
@[simp] theorem resetBus_chain (s : State) : (resetBus s).chain = s.chain := rfl
@[simp] theorem resetBus_lastChk (s : State) : (resetBus s).lastChk = s.lastChk := rfl
@[simp] theorem resetBus_lastChkV (s : State) : (resetBus s).lastChkV = s.lastChkV := rfl
@[simp] theorem resetBus_lastErr (s : State) : (resetBus s).lastErr = s.lastErr := rfl
@[simp] theorem resetBus_errFlags (s : State) : (resetBus s).errFlags = s.errFlags := rfl
@[simp] theorem resetBus_timer (s : State) : (resetBus s).timer = s.timer := rfl
@[simp] theorem resetBus_dispValid (s : State) : (resetBus s).dispValid = s.dispValid := rfl
@[simp] theorem resetBus_dispSlot (s : State) : (resetBus s).dispSlot = s.dispSlot := rfl
@[simp] theorem resetBus_dispKind (s : State) : (resetBus s).dispKind = s.dispKind := rfl
@[simp] theorem resetBus_dispCap (s : State) : (resetBus s).dispCap = s.dispCap := rfl
@[simp] theorem resetBus_dispCmd (s : State) : (resetBus s).dispCmd = s.dispCmd := rfl
@[simp] theorem resetBus_phase (s : State) : (resetBus s).phase = s.phase := rfl
@[simp] theorem resetBus_reqPin (s : State) : (resetBus s).reqPin = s.reqPin := rfl
@[simp] theorem resetBus_txBits (s : State) : (resetBus s).txBits = s.txBits := rfl
@[simp] theorem resetBus_hostLine (s : State) : (resetBus s).hostLine = s.hostLine := rfl
@[simp] theorem resetBus_samples (s : State) : (resetBus s).samples = s.samples := rfl
@[simp] theorem resetBus_reqApp (s : State) : (resetBus s).reqApp = s.reqApp := rfl
@[simp] theorem resetBus_reqDev (s : State) : (resetBus s).reqDev = s.reqDev := rfl
@[simp] theorem resetBus_busy (s : State) : (resetBus s).busy = s.busy := rfl
@[simp] theorem resetBus_replyApp (s : State) : (resetBus s).replyApp = s.replyApp := rfl
@[simp] theorem resetBus_replyDev (s : State) : (resetBus s).replyDev = s.replyDev := rfl
@[simp] theorem resetBus_csrOut (s : State) : (resetBus s).csrOut = s.csrOut := rfl
@[simp] theorem resetBus_refusedOp (s : State) : (resetBus s).refusedOp = s.refusedOp := rfl
@[simp] theorem resetBus_script (s : State) : (resetBus s).script = s.script := rfl
@[simp] theorem resetBus_turn (s : State) : (resetBus s).turn = s.turn := rfl
@[simp] theorem resetBus_draws (s : State) : (resetBus s).draws = s.draws := rfl
@[simp] theorem resetBus_hostTimeouts (s : State) : (resetBus s).hostTimeouts = s.hostTimeouts := rfl
@[simp] theorem resetBus_txChecked (s : State) : (resetBus s).txChecked = s.txChecked := rfl
@[simp] theorem resetBus_expectFailed (s : State) : (resetBus s).expectFailed = s.expectFailed := rfl

/-! ### dropCommand -/

@[simp] theorem dropCommand_params (e : Err) (s : State) : (dropCommand e s).params = s.params := rfl
@[simp] theorem dropCommand_eng (e : Err) (s : State) : (dropCommand e s).eng = .finish := rfl
@[simp] theorem dropCommand_ack (e : Err) (s : State) : (dropCommand e s).ack = s.ack := rfl
@[simp] theorem dropCommand_staged (e : Err) (s : State) : (dropCommand e s).staged = s.staged := rfl
@[simp] theorem dropCommand_mb (e : Err) (s : State) : (dropCommand e s).mb = s.mb := rfl
@[simp] theorem dropCommand_mbLen (e : Err) (s : State) : (dropCommand e s).mbLen = s.mbLen := rfl
@[simp] theorem dropCommand_mbLock (e : Err) (s : State) : (dropCommand e s).mbLock = s.mbLock := rfl
@[simp] theorem dropCommand_curKind (e : Err) (s : State) : (dropCommand e s).curKind = s.curKind := rfl
@[simp] theorem dropCommand_curSlot (e : Err) (s : State) : (dropCommand e s).curSlot = s.curSlot := rfl
@[simp] theorem dropCommand_curDec (e : Err) (s : State) : (dropCommand e s).curDec = s.curDec := rfl
@[simp] theorem dropCommand_curStatus (e : Err) (s : State) : (dropCommand e s).curStatus = s.curStatus := rfl
@[simp] theorem dropCommand_wT0 (e : Err) (s : State) : (dropCommand e s).wT0 = s.wT0 := rfl
@[simp] theorem dropCommand_wLimit (e : Err) (s : State) : (dropCommand e s).wLimit = s.wLimit := rfl
@[simp] theorem dropCommand_trState (e : Err) (s : State) : (dropCommand e s).trState = s.trState := rfl
@[simp] theorem dropCommand_trT0 (e : Err) (s : State) : (dropCommand e s).trT0 = s.trT0 := rfl
@[simp] theorem dropCommand_trLimit (e : Err) (s : State) : (dropCommand e s).trLimit = s.trLimit := rfl
@[simp] theorem dropCommand_trResult (e : Err) (s : State) : (dropCommand e s).trResult = s.trResult := rfl
@[simp] theorem dropCommand_txBuf (e : Err) (s : State) : (dropCommand e s).txBuf = s.txBuf := rfl
@[simp] theorem dropCommand_txLen (e : Err) (s : State) : (dropCommand e s).txLen = s.txLen := rfl
@[simp] theorem dropCommand_rxBuf (e : Err) (s : State) : (dropCommand e s).rxBuf = s.rxBuf := rfl
@[simp] theorem dropCommand_rxLen (e : Err) (s : State) : (dropCommand e s).rxLen = s.rxLen := rfl
@[simp] theorem dropCommand_rxLock (e : Err) (s : State) : (dropCommand e s).rxLock = s.rxLock := rfl
@[simp] theorem dropCommand_rxExpect (e : Err) (s : State) : (dropCommand e s).rxExpect = s.rxExpect := rfl
@[simp] theorem dropCommand_isrState (e : Err) (s : State) : (dropCommand e s).isrState = s.isrState := rfl
@[simp] theorem dropCommand_isrT0 (e : Err) (s : State) : (dropCommand e s).isrT0 = s.isrT0 := rfl
@[simp] theorem dropCommand_irqPend (e : Err) (s : State) : (dropCommand e s).irqPend = s.irqPend := rfl
@[simp] theorem dropCommand_prevPhase (e : Err) (s : State) : (dropCommand e s).prevPhase = s.prevPhase := rfl
@[simp] theorem dropCommand_dev (e : Err) (s : State) : (dropCommand e s).dev = s.dev := rfl
@[simp] theorem dropCommand_chain (e : Err) (s : State) : (dropCommand e s).chain = s.chain := rfl
@[simp] theorem dropCommand_lastChk (e : Err) (s : State) : (dropCommand e s).lastChk = s.lastChk := rfl
@[simp] theorem dropCommand_lastChkV (e : Err) (s : State) : (dropCommand e s).lastChkV = s.lastChkV := rfl
@[simp] theorem dropCommand_lastErr (e : Err) (s : State) : (dropCommand e s).lastErr = e.code := rfl
@[simp] theorem dropCommand_errFlags (e : Err) (s : State) : (dropCommand e s).errFlags = s.errFlags ||| (1#16 <<< e.num) := rfl
@[simp] theorem dropCommand_timer (e : Err) (s : State) : (dropCommand e s).timer = s.timer := rfl
@[simp] theorem dropCommand_dispValid (e : Err) (s : State) : (dropCommand e s).dispValid = s.dispValid := rfl
@[simp] theorem dropCommand_dispSlot (e : Err) (s : State) : (dropCommand e s).dispSlot = s.dispSlot := rfl
@[simp] theorem dropCommand_dispKind (e : Err) (s : State) : (dropCommand e s).dispKind = s.dispKind := rfl
@[simp] theorem dropCommand_dispCap (e : Err) (s : State) : (dropCommand e s).dispCap = s.dispCap := rfl
@[simp] theorem dropCommand_dispCmd (e : Err) (s : State) : (dropCommand e s).dispCmd = s.dispCmd := rfl
@[simp] theorem dropCommand_phase (e : Err) (s : State) : (dropCommand e s).phase = s.phase := rfl
@[simp] theorem dropCommand_reqPin (e : Err) (s : State) : (dropCommand e s).reqPin = s.reqPin := rfl
@[simp] theorem dropCommand_txBits (e : Err) (s : State) : (dropCommand e s).txBits = s.txBits := rfl
@[simp] theorem dropCommand_hostLine (e : Err) (s : State) : (dropCommand e s).hostLine = s.hostLine := rfl
@[simp] theorem dropCommand_samples (e : Err) (s : State) : (dropCommand e s).samples = s.samples := rfl
@[simp] theorem dropCommand_reqApp (e : Err) (s : State) : (dropCommand e s).reqApp = s.reqApp := rfl
@[simp] theorem dropCommand_reqDev (e : Err) (s : State) : (dropCommand e s).reqDev = s.reqDev := rfl
@[simp] theorem dropCommand_busy (e : Err) (s : State) : (dropCommand e s).busy = s.busy := rfl
@[simp] theorem dropCommand_replyApp (e : Err) (s : State) : (dropCommand e s).replyApp = s.replyApp := rfl
@[simp] theorem dropCommand_replyDev (e : Err) (s : State) : (dropCommand e s).replyDev = s.replyDev := rfl
@[simp] theorem dropCommand_csrOut (e : Err) (s : State) : (dropCommand e s).csrOut = s.csrOut := rfl
@[simp] theorem dropCommand_refusedOp (e : Err) (s : State) : (dropCommand e s).refusedOp = s.refusedOp := rfl
@[simp] theorem dropCommand_script (e : Err) (s : State) : (dropCommand e s).script = s.script := rfl
@[simp] theorem dropCommand_turn (e : Err) (s : State) : (dropCommand e s).turn = s.turn := rfl
@[simp] theorem dropCommand_draws (e : Err) (s : State) : (dropCommand e s).draws = s.draws := rfl
@[simp] theorem dropCommand_hostTimeouts (e : Err) (s : State) : (dropCommand e s).hostTimeouts = s.hostTimeouts := rfl
@[simp] theorem dropCommand_txChecked (e : Err) (s : State) : (dropCommand e s).txChecked = s.txChecked := rfl
@[simp] theorem dropCommand_expectFailed (e : Err) (s : State) : (dropCommand e s).expectFailed = s.expectFailed := rfl

/-! ### dispatch -/

@[simp] theorem dispatch_params (r : DecRec) (s : State) : (dispatch r s).params = s.params := rfl
@[simp] theorem dispatch_eng (r : DecRec) (s : State) : (dispatch r s).eng = .device := rfl
@[simp] theorem dispatch_ack (r : DecRec) (s : State) : (dispatch r s).ack = s.ack := rfl
@[simp] theorem dispatch_staged (r : DecRec) (s : State) : (dispatch r s).staged = s.staged := rfl
@[simp] theorem dispatch_mb (r : DecRec) (s : State) : (dispatch r s).mb = s.mb := rfl
@[simp] theorem dispatch_mbLen (r : DecRec) (s : State) : (dispatch r s).mbLen = s.mbLen := rfl
@[simp] theorem dispatch_mbLock (r : DecRec) (s : State) : (dispatch r s).mbLock = s.mbLock := rfl
@[simp] theorem dispatch_curKind (r : DecRec) (s : State) : (dispatch r s).curKind = s.curKind := rfl
@[simp] theorem dispatch_curSlot (r : DecRec) (s : State) : (dispatch r s).curSlot = s.curSlot := rfl
@[simp] theorem dispatch_curDec (r : DecRec) (s : State) : (dispatch r s).curDec = r := rfl
@[simp] theorem dispatch_curStatus (r : DecRec) (s : State) : (dispatch r s).curStatus = s.curStatus := rfl
@[simp] theorem dispatch_wT0 (r : DecRec) (s : State) : (dispatch r s).wT0 = s.wT0 := rfl
@[simp] theorem dispatch_wLimit (r : DecRec) (s : State) : (dispatch r s).wLimit = s.wLimit := rfl
@[simp] theorem dispatch_trState (r : DecRec) (s : State) : (dispatch r s).trState = s.trState := rfl
@[simp] theorem dispatch_trT0 (r : DecRec) (s : State) : (dispatch r s).trT0 = s.trT0 := rfl
@[simp] theorem dispatch_trLimit (r : DecRec) (s : State) : (dispatch r s).trLimit = s.trLimit := rfl
@[simp] theorem dispatch_trResult (r : DecRec) (s : State) : (dispatch r s).trResult = s.trResult := rfl
@[simp] theorem dispatch_txBuf (r : DecRec) (s : State) : (dispatch r s).txBuf = s.txBuf := rfl
@[simp] theorem dispatch_txLen (r : DecRec) (s : State) : (dispatch r s).txLen = s.txLen := rfl
@[simp] theorem dispatch_rxBuf (r : DecRec) (s : State) : (dispatch r s).rxBuf = s.rxBuf := rfl
@[simp] theorem dispatch_rxLen (r : DecRec) (s : State) : (dispatch r s).rxLen = s.rxLen := rfl
@[simp] theorem dispatch_rxLock (r : DecRec) (s : State) : (dispatch r s).rxLock = s.rxLock := rfl
@[simp] theorem dispatch_rxExpect (r : DecRec) (s : State) : (dispatch r s).rxExpect = s.rxExpect := rfl
@[simp] theorem dispatch_isrState (r : DecRec) (s : State) : (dispatch r s).isrState = s.isrState := rfl
@[simp] theorem dispatch_isrT0 (r : DecRec) (s : State) : (dispatch r s).isrT0 = s.isrT0 := rfl
@[simp] theorem dispatch_irqPend (r : DecRec) (s : State) : (dispatch r s).irqPend = s.irqPend := rfl
@[simp] theorem dispatch_prevPhase (r : DecRec) (s : State) : (dispatch r s).prevPhase = s.prevPhase := rfl
@[simp] theorem dispatch_dev (r : DecRec) (s : State) : (dispatch r s).dev = s.dev := rfl
@[simp] theorem dispatch_chain (r : DecRec) (s : State) : (dispatch r s).chain = s.chain := rfl
@[simp] theorem dispatch_lastChk (r : DecRec) (s : State) : (dispatch r s).lastChk = s.lastChk := rfl
@[simp] theorem dispatch_lastChkV (r : DecRec) (s : State) : (dispatch r s).lastChkV = s.lastChkV := rfl
@[simp] theorem dispatch_lastErr (r : DecRec) (s : State) : (dispatch r s).lastErr = s.lastErr := rfl
@[simp] theorem dispatch_errFlags (r : DecRec) (s : State) : (dispatch r s).errFlags = s.errFlags := rfl
@[simp] theorem dispatch_timer (r : DecRec) (s : State) : (dispatch r s).timer = s.timer := rfl
@[simp] theorem dispatch_dispValid (r : DecRec) (s : State) : (dispatch r s).dispValid = true := rfl
@[simp] theorem dispatch_dispSlot (r : DecRec) (s : State) : (dispatch r s).dispSlot = s.curSlot := rfl
@[simp] theorem dispatch_dispKind (r : DecRec) (s : State) : (dispatch r s).dispKind = .cmd := rfl
@[simp] theorem dispatch_dispCap (r : DecRec) (s : State) : (dispatch r s).dispCap = capOf s.params r.opcode := rfl
@[simp] theorem dispatch_dispCmd (r : DecRec) (s : State) : (dispatch r s).dispCmd = r := rfl
@[simp] theorem dispatch_phase (r : DecRec) (s : State) : (dispatch r s).phase = s.phase := rfl
@[simp] theorem dispatch_reqPin (r : DecRec) (s : State) : (dispatch r s).reqPin = s.reqPin := rfl
@[simp] theorem dispatch_txBits (r : DecRec) (s : State) : (dispatch r s).txBits = s.txBits := rfl
@[simp] theorem dispatch_hostLine (r : DecRec) (s : State) : (dispatch r s).hostLine = s.hostLine := rfl
@[simp] theorem dispatch_samples (r : DecRec) (s : State) : (dispatch r s).samples = s.samples := rfl
@[simp] theorem dispatch_reqApp (r : DecRec) (s : State) : (dispatch r s).reqApp = s.reqApp := rfl
@[simp] theorem dispatch_reqDev (r : DecRec) (s : State) : (dispatch r s).reqDev = s.reqDev := rfl
@[simp] theorem dispatch_busy (r : DecRec) (s : State) : (dispatch r s).busy = s.busy := rfl
@[simp] theorem dispatch_replyApp (r : DecRec) (s : State) : (dispatch r s).replyApp = s.replyApp := rfl
@[simp] theorem dispatch_replyDev (r : DecRec) (s : State) : (dispatch r s).replyDev = s.replyDev := rfl
@[simp] theorem dispatch_csrOut (r : DecRec) (s : State) : (dispatch r s).csrOut = s.csrOut := rfl
@[simp] theorem dispatch_refusedOp (r : DecRec) (s : State) : (dispatch r s).refusedOp = s.refusedOp := rfl
@[simp] theorem dispatch_script (r : DecRec) (s : State) : (dispatch r s).script = s.script := rfl
@[simp] theorem dispatch_turn (r : DecRec) (s : State) : (dispatch r s).turn = s.turn := rfl
@[simp] theorem dispatch_draws (r : DecRec) (s : State) : (dispatch r s).draws = s.draws := rfl
@[simp] theorem dispatch_hostTimeouts (r : DecRec) (s : State) : (dispatch r s).hostTimeouts = s.hostTimeouts := rfl
@[simp] theorem dispatch_txChecked (r : DecRec) (s : State) : (dispatch r s).txChecked = s.txChecked := rfl
@[simp] theorem dispatch_expectFailed (r : DecRec) (s : State) : (dispatch r s).expectFailed = s.expectFailed := rfl

/-! ### dispatchError -/

@[simp] theorem dispatchError_params (s : State) : (dispatchError s).params = s.params := rfl
@[simp] theorem dispatchError_eng (s : State) : (dispatchError s).eng = .device := rfl
@[simp] theorem dispatchError_ack (s : State) : (dispatchError s).ack = s.ack := rfl
@[simp] theorem dispatchError_staged (s : State) : (dispatchError s).staged = s.staged := rfl
@[simp] theorem dispatchError_mb (s : State) : (dispatchError s).mb = s.mb := rfl
@[simp] theorem dispatchError_mbLen (s : State) : (dispatchError s).mbLen = s.mbLen := rfl
@[simp] theorem dispatchError_mbLock (s : State) : (dispatchError s).mbLock = s.mbLock := rfl
@[simp] theorem dispatchError_curKind (s : State) : (dispatchError s).curKind = s.curKind := rfl
@[simp] theorem dispatchError_curSlot (s : State) : (dispatchError s).curSlot = s.curSlot := rfl
@[simp] theorem dispatchError_curDec (s : State) : (dispatchError s).curDec = s.curDec := rfl
@[simp] theorem dispatchError_curStatus (s : State) : (dispatchError s).curStatus = s.curStatus := rfl
@[simp] theorem dispatchError_wT0 (s : State) : (dispatchError s).wT0 = s.wT0 := rfl
@[simp] theorem dispatchError_wLimit (s : State) : (dispatchError s).wLimit = s.wLimit := rfl
@[simp] theorem dispatchError_trState (s : State) : (dispatchError s).trState = s.trState := rfl
@[simp] theorem dispatchError_trT0 (s : State) : (dispatchError s).trT0 = s.trT0 := rfl
@[simp] theorem dispatchError_trLimit (s : State) : (dispatchError s).trLimit = s.trLimit := rfl
@[simp] theorem dispatchError_trResult (s : State) : (dispatchError s).trResult = s.trResult := rfl
@[simp] theorem dispatchError_txBuf (s : State) : (dispatchError s).txBuf = s.txBuf := rfl
@[simp] theorem dispatchError_txLen (s : State) : (dispatchError s).txLen = s.txLen := rfl
@[simp] theorem dispatchError_rxBuf (s : State) : (dispatchError s).rxBuf = s.rxBuf := rfl
@[simp] theorem dispatchError_rxLen (s : State) : (dispatchError s).rxLen = s.rxLen := rfl
@[simp] theorem dispatchError_rxLock (s : State) : (dispatchError s).rxLock = s.rxLock := rfl
@[simp] theorem dispatchError_rxExpect (s : State) : (dispatchError s).rxExpect = s.rxExpect := rfl
@[simp] theorem dispatchError_isrState (s : State) : (dispatchError s).isrState = s.isrState := rfl
@[simp] theorem dispatchError_isrT0 (s : State) : (dispatchError s).isrT0 = s.isrT0 := rfl
@[simp] theorem dispatchError_irqPend (s : State) : (dispatchError s).irqPend = s.irqPend := rfl
@[simp] theorem dispatchError_prevPhase (s : State) : (dispatchError s).prevPhase = s.prevPhase := rfl
@[simp] theorem dispatchError_dev (s : State) : (dispatchError s).dev = s.dev := rfl
@[simp] theorem dispatchError_chain (s : State) : (dispatchError s).chain = s.chain := rfl
@[simp] theorem dispatchError_lastChk (s : State) : (dispatchError s).lastChk = s.lastChk := rfl
@[simp] theorem dispatchError_lastChkV (s : State) : (dispatchError s).lastChkV = s.lastChkV := rfl
@[simp] theorem dispatchError_lastErr (s : State) : (dispatchError s).lastErr = s.lastErr := rfl
@[simp] theorem dispatchError_errFlags (s : State) : (dispatchError s).errFlags = s.errFlags := rfl
@[simp] theorem dispatchError_timer (s : State) : (dispatchError s).timer = s.timer := rfl
@[simp] theorem dispatchError_dispValid (s : State) : (dispatchError s).dispValid = true := rfl
@[simp] theorem dispatchError_dispSlot (s : State) : (dispatchError s).dispSlot = s.curSlot := rfl
@[simp] theorem dispatchError_dispKind (s : State) : (dispatchError s).dispKind = .ioerror := rfl
@[simp] theorem dispatchError_dispCap (s : State) : (dispatchError s).dispCap = .noCap := rfl
@[simp] theorem dispatchError_dispCmd (s : State) : (dispatchError s).dispCmd = s.dispCmd := rfl
@[simp] theorem dispatchError_phase (s : State) : (dispatchError s).phase = s.phase := rfl
@[simp] theorem dispatchError_reqPin (s : State) : (dispatchError s).reqPin = s.reqPin := rfl
@[simp] theorem dispatchError_txBits (s : State) : (dispatchError s).txBits = s.txBits := rfl
@[simp] theorem dispatchError_hostLine (s : State) : (dispatchError s).hostLine = s.hostLine := rfl
@[simp] theorem dispatchError_samples (s : State) : (dispatchError s).samples = s.samples := rfl
@[simp] theorem dispatchError_reqApp (s : State) : (dispatchError s).reqApp = s.reqApp := rfl
@[simp] theorem dispatchError_reqDev (s : State) : (dispatchError s).reqDev = s.reqDev := rfl
@[simp] theorem dispatchError_busy (s : State) : (dispatchError s).busy = s.busy := rfl
@[simp] theorem dispatchError_replyApp (s : State) : (dispatchError s).replyApp = s.replyApp := rfl
@[simp] theorem dispatchError_replyDev (s : State) : (dispatchError s).replyDev = s.replyDev := rfl
@[simp] theorem dispatchError_csrOut (s : State) : (dispatchError s).csrOut = s.csrOut := rfl
@[simp] theorem dispatchError_refusedOp (s : State) : (dispatchError s).refusedOp = s.refusedOp := rfl
@[simp] theorem dispatchError_script (s : State) : (dispatchError s).script = s.script := rfl
@[simp] theorem dispatchError_turn (s : State) : (dispatchError s).turn = s.turn := rfl
@[simp] theorem dispatchError_draws (s : State) : (dispatchError s).draws = s.draws := rfl
@[simp] theorem dispatchError_hostTimeouts (s : State) : (dispatchError s).hostTimeouts = s.hostTimeouts := rfl
@[simp] theorem dispatchError_txChecked (s : State) : (dispatchError s).txChecked = s.txChecked := rfl
@[simp] theorem dispatchError_expectFailed (s : State) : (dispatchError s).expectFailed = s.expectFailed := rfl

/-! ### detectEdge -/

@[simp] theorem detectEdge_params (s : State) : (detectEdge s).params = s.params := rfl
@[simp] theorem detectEdge_eng (s : State) : (detectEdge s).eng = s.eng := rfl
@[simp] theorem detectEdge_ack (s : State) : (detectEdge s).ack = s.ack := rfl
@[simp] theorem detectEdge_staged (s : State) : (detectEdge s).staged = s.staged := rfl
@[simp] theorem detectEdge_mb (s : State) : (detectEdge s).mb = s.mb := rfl
@[simp] theorem detectEdge_mbLen (s : State) : (detectEdge s).mbLen = s.mbLen := rfl
@[simp] theorem detectEdge_mbLock (s : State) : (detectEdge s).mbLock = s.mbLock := rfl
@[simp] theorem detectEdge_curKind (s : State) : (detectEdge s).curKind = s.curKind := rfl
@[simp] theorem detectEdge_curSlot (s : State) : (detectEdge s).curSlot = s.curSlot := rfl
@[simp] theorem detectEdge_curDec (s : State) : (detectEdge s).curDec = s.curDec := rfl
@[simp] theorem detectEdge_curStatus (s : State) : (detectEdge s).curStatus = s.curStatus := rfl
@[simp] theorem detectEdge_wT0 (s : State) : (detectEdge s).wT0 = s.wT0 := rfl
@[simp] theorem detectEdge_wLimit (s : State) : (detectEdge s).wLimit = s.wLimit := rfl
@[simp] theorem detectEdge_trState (s : State) : (detectEdge s).trState = s.trState := rfl
@[simp] theorem detectEdge_trT0 (s : State) : (detectEdge s).trT0 = s.trT0 := rfl
@[simp] theorem detectEdge_trLimit (s : State) : (detectEdge s).trLimit = s.trLimit := rfl
@[simp] theorem detectEdge_trResult (s : State) : (detectEdge s).trResult = s.trResult := rfl
@[simp] theorem detectEdge_txBuf (s : State) : (detectEdge s).txBuf = s.txBuf := rfl
@[simp] theorem detectEdge_txLen (s : State) : (detectEdge s).txLen = s.txLen := rfl
@[simp] theorem detectEdge_rxBuf (s : State) : (detectEdge s).rxBuf = s.rxBuf := rfl
@[simp] theorem detectEdge_rxLen (s : State) : (detectEdge s).rxLen = s.rxLen := rfl
@[simp] theorem detectEdge_rxLock (s : State) : (detectEdge s).rxLock = s.rxLock := rfl
@[simp] theorem detectEdge_rxExpect (s : State) : (detectEdge s).rxExpect = s.rxExpect := rfl
@[simp] theorem detectEdge_isrState (s : State) : (detectEdge s).isrState = s.isrState := rfl
@[simp] theorem detectEdge_isrT0 (s : State) : (detectEdge s).isrT0 = s.isrT0 := rfl
@[simp] theorem detectEdge_irqPend (s : State) : (detectEdge s).irqPend = (s.irqPend || s.phase != s.prevPhase) := rfl
@[simp] theorem detectEdge_prevPhase (s : State) : (detectEdge s).prevPhase = s.phase := rfl
@[simp] theorem detectEdge_dev (s : State) : (detectEdge s).dev = s.dev := rfl
@[simp] theorem detectEdge_chain (s : State) : (detectEdge s).chain = s.chain := rfl
@[simp] theorem detectEdge_lastChk (s : State) : (detectEdge s).lastChk = s.lastChk := rfl
@[simp] theorem detectEdge_lastChkV (s : State) : (detectEdge s).lastChkV = s.lastChkV := rfl
@[simp] theorem detectEdge_lastErr (s : State) : (detectEdge s).lastErr = s.lastErr := rfl
@[simp] theorem detectEdge_errFlags (s : State) : (detectEdge s).errFlags = s.errFlags := rfl
@[simp] theorem detectEdge_timer (s : State) : (detectEdge s).timer = s.timer := rfl
@[simp] theorem detectEdge_dispValid (s : State) : (detectEdge s).dispValid = s.dispValid := rfl
@[simp] theorem detectEdge_dispSlot (s : State) : (detectEdge s).dispSlot = s.dispSlot := rfl
@[simp] theorem detectEdge_dispKind (s : State) : (detectEdge s).dispKind = s.dispKind := rfl
@[simp] theorem detectEdge_dispCap (s : State) : (detectEdge s).dispCap = s.dispCap := rfl
@[simp] theorem detectEdge_dispCmd (s : State) : (detectEdge s).dispCmd = s.dispCmd := rfl
@[simp] theorem detectEdge_phase (s : State) : (detectEdge s).phase = s.phase := rfl
@[simp] theorem detectEdge_reqPin (s : State) : (detectEdge s).reqPin = s.reqPin := rfl
@[simp] theorem detectEdge_txBits (s : State) : (detectEdge s).txBits = s.txBits := rfl
@[simp] theorem detectEdge_hostLine (s : State) : (detectEdge s).hostLine = s.hostLine := rfl
@[simp] theorem detectEdge_samples (s : State) : (detectEdge s).samples = s.samples := rfl
@[simp] theorem detectEdge_reqApp (s : State) : (detectEdge s).reqApp = s.reqApp := rfl
@[simp] theorem detectEdge_reqDev (s : State) : (detectEdge s).reqDev = s.reqDev := rfl
@[simp] theorem detectEdge_busy (s : State) : (detectEdge s).busy = s.busy := rfl
@[simp] theorem detectEdge_replyApp (s : State) : (detectEdge s).replyApp = s.replyApp := rfl
@[simp] theorem detectEdge_replyDev (s : State) : (detectEdge s).replyDev = s.replyDev := rfl
@[simp] theorem detectEdge_csrOut (s : State) : (detectEdge s).csrOut = s.csrOut := rfl
@[simp] theorem detectEdge_refusedOp (s : State) : (detectEdge s).refusedOp = s.refusedOp := rfl
@[simp] theorem detectEdge_script (s : State) : (detectEdge s).script = s.script := rfl
@[simp] theorem detectEdge_turn (s : State) : (detectEdge s).turn = s.turn := rfl
@[simp] theorem detectEdge_draws (s : State) : (detectEdge s).draws = s.draws := rfl
@[simp] theorem detectEdge_hostTimeouts (s : State) : (detectEdge s).hostTimeouts = s.hostTimeouts := rfl
@[simp] theorem detectEdge_txChecked (s : State) : (detectEdge s).txChecked = s.txChecked := rfl
@[simp] theorem detectEdge_expectFailed (s : State) : (detectEdge s).expectFailed = s.expectFailed := rfl

/-! ### drivePhase -/

@[simp] theorem drivePhase_params (p : Phase) (s : State) : (drivePhase p s).params = s.params := rfl
@[simp] theorem drivePhase_eng (p : Phase) (s : State) : (drivePhase p s).eng = s.eng := rfl
@[simp] theorem drivePhase_ack (p : Phase) (s : State) : (drivePhase p s).ack = s.ack := rfl
@[simp] theorem drivePhase_staged (p : Phase) (s : State) : (drivePhase p s).staged = s.staged := rfl
@[simp] theorem drivePhase_mb (p : Phase) (s : State) : (drivePhase p s).mb = s.mb := rfl
@[simp] theorem drivePhase_mbLen (p : Phase) (s : State) : (drivePhase p s).mbLen = s.mbLen := rfl
@[simp] theorem drivePhase_mbLock (p : Phase) (s : State) : (drivePhase p s).mbLock = s.mbLock := rfl
@[simp] theorem drivePhase_curKind (p : Phase) (s : State) : (drivePhase p s).curKind = s.curKind := rfl
@[simp] theorem drivePhase_curSlot (p : Phase) (s : State) : (drivePhase p s).curSlot = s.curSlot := rfl
@[simp] theorem drivePhase_curDec (p : Phase) (s : State) : (drivePhase p s).curDec = s.curDec := rfl
@[simp] theorem drivePhase_curStatus (p : Phase) (s : State) : (drivePhase p s).curStatus = s.curStatus := rfl
@[simp] theorem drivePhase_wT0 (p : Phase) (s : State) : (drivePhase p s).wT0 = s.wT0 := rfl
@[simp] theorem drivePhase_wLimit (p : Phase) (s : State) : (drivePhase p s).wLimit = s.wLimit := rfl
@[simp] theorem drivePhase_trState (p : Phase) (s : State) : (drivePhase p s).trState = s.trState := rfl
@[simp] theorem drivePhase_trT0 (p : Phase) (s : State) : (drivePhase p s).trT0 = s.trT0 := rfl
@[simp] theorem drivePhase_trLimit (p : Phase) (s : State) : (drivePhase p s).trLimit = s.trLimit := rfl
@[simp] theorem drivePhase_trResult (p : Phase) (s : State) : (drivePhase p s).trResult = s.trResult := rfl
@[simp] theorem drivePhase_txBuf (p : Phase) (s : State) : (drivePhase p s).txBuf = s.txBuf := rfl
@[simp] theorem drivePhase_txLen (p : Phase) (s : State) : (drivePhase p s).txLen = s.txLen := rfl
@[simp] theorem drivePhase_rxBuf (p : Phase) (s : State) : (drivePhase p s).rxBuf = s.rxBuf := rfl
@[simp] theorem drivePhase_rxLen (p : Phase) (s : State) : (drivePhase p s).rxLen = s.rxLen := rfl
@[simp] theorem drivePhase_rxLock (p : Phase) (s : State) : (drivePhase p s).rxLock = s.rxLock := rfl
@[simp] theorem drivePhase_rxExpect (p : Phase) (s : State) : (drivePhase p s).rxExpect = s.rxExpect := rfl
@[simp] theorem drivePhase_isrState (p : Phase) (s : State) : (drivePhase p s).isrState = s.isrState := rfl
@[simp] theorem drivePhase_isrT0 (p : Phase) (s : State) : (drivePhase p s).isrT0 = s.isrT0 := rfl
@[simp] theorem drivePhase_irqPend (p : Phase) (s : State) : (drivePhase p s).irqPend = s.irqPend := rfl
@[simp] theorem drivePhase_prevPhase (p : Phase) (s : State) : (drivePhase p s).prevPhase = s.prevPhase := rfl
@[simp] theorem drivePhase_dev (p : Phase) (s : State) : (drivePhase p s).dev = s.dev := rfl
@[simp] theorem drivePhase_chain (p : Phase) (s : State) : (drivePhase p s).chain = s.chain := rfl
@[simp] theorem drivePhase_lastChk (p : Phase) (s : State) : (drivePhase p s).lastChk = s.lastChk := rfl
@[simp] theorem drivePhase_lastChkV (p : Phase) (s : State) : (drivePhase p s).lastChkV = s.lastChkV := rfl
@[simp] theorem drivePhase_lastErr (p : Phase) (s : State) : (drivePhase p s).lastErr = s.lastErr := rfl
@[simp] theorem drivePhase_errFlags (p : Phase) (s : State) : (drivePhase p s).errFlags = s.errFlags := rfl
@[simp] theorem drivePhase_timer (p : Phase) (s : State) : (drivePhase p s).timer = s.timer := rfl
@[simp] theorem drivePhase_dispValid (p : Phase) (s : State) : (drivePhase p s).dispValid = s.dispValid := rfl
@[simp] theorem drivePhase_dispSlot (p : Phase) (s : State) : (drivePhase p s).dispSlot = s.dispSlot := rfl
@[simp] theorem drivePhase_dispKind (p : Phase) (s : State) : (drivePhase p s).dispKind = s.dispKind := rfl
@[simp] theorem drivePhase_dispCap (p : Phase) (s : State) : (drivePhase p s).dispCap = s.dispCap := rfl
@[simp] theorem drivePhase_dispCmd (p : Phase) (s : State) : (drivePhase p s).dispCmd = s.dispCmd := rfl
@[simp] theorem drivePhase_phase (p : Phase) (s : State) : (drivePhase p s).phase = p := rfl
@[simp] theorem drivePhase_reqPin (p : Phase) (s : State) : (drivePhase p s).reqPin = s.reqPin := rfl
@[simp] theorem drivePhase_txBits (p : Phase) (s : State) : (drivePhase p s).txBits = s.txBits := rfl
@[simp] theorem drivePhase_hostLine (p : Phase) (s : State) : (drivePhase p s).hostLine = s.hostLine := rfl
@[simp] theorem drivePhase_samples (p : Phase) (s : State) : (drivePhase p s).samples = s.samples := rfl
@[simp] theorem drivePhase_reqApp (p : Phase) (s : State) : (drivePhase p s).reqApp = s.reqApp := rfl
@[simp] theorem drivePhase_reqDev (p : Phase) (s : State) : (drivePhase p s).reqDev = s.reqDev := rfl
@[simp] theorem drivePhase_busy (p : Phase) (s : State) : (drivePhase p s).busy = s.busy := rfl
@[simp] theorem drivePhase_replyApp (p : Phase) (s : State) : (drivePhase p s).replyApp = s.replyApp := rfl
@[simp] theorem drivePhase_replyDev (p : Phase) (s : State) : (drivePhase p s).replyDev = s.replyDev := rfl
@[simp] theorem drivePhase_csrOut (p : Phase) (s : State) : (drivePhase p s).csrOut = s.csrOut := rfl
@[simp] theorem drivePhase_refusedOp (p : Phase) (s : State) : (drivePhase p s).refusedOp = s.refusedOp := rfl
@[simp] theorem drivePhase_script (p : Phase) (s : State) : (drivePhase p s).script = s.script := rfl
@[simp] theorem drivePhase_turn (p : Phase) (s : State) : (drivePhase p s).turn = s.turn := rfl
@[simp] theorem drivePhase_draws (p : Phase) (s : State) : (drivePhase p s).draws = s.draws := rfl
@[simp] theorem drivePhase_hostTimeouts (p : Phase) (s : State) : (drivePhase p s).hostTimeouts = s.hostTimeouts := rfl
@[simp] theorem drivePhase_txChecked (p : Phase) (s : State) : (drivePhase p s).txChecked = s.txChecked := rfl
@[simp] theorem drivePhase_expectFailed (p : Phase) (s : State) : (drivePhase p s).expectFailed = s.expectFailed := rfl

/-! ### queueLine -/

@[simp] theorem queueLine_params (b : List Byte) (s : State) : (queueLine b s).params = s.params := rfl
@[simp] theorem queueLine_eng (b : List Byte) (s : State) : (queueLine b s).eng = s.eng := rfl
@[simp] theorem queueLine_ack (b : List Byte) (s : State) : (queueLine b s).ack = s.ack := rfl
@[simp] theorem queueLine_staged (b : List Byte) (s : State) : (queueLine b s).staged = s.staged := rfl
@[simp] theorem queueLine_mb (b : List Byte) (s : State) : (queueLine b s).mb = s.mb := rfl
@[simp] theorem queueLine_mbLen (b : List Byte) (s : State) : (queueLine b s).mbLen = s.mbLen := rfl
@[simp] theorem queueLine_mbLock (b : List Byte) (s : State) : (queueLine b s).mbLock = s.mbLock := rfl
@[simp] theorem queueLine_curKind (b : List Byte) (s : State) : (queueLine b s).curKind = s.curKind := rfl
@[simp] theorem queueLine_curSlot (b : List Byte) (s : State) : (queueLine b s).curSlot = s.curSlot := rfl
@[simp] theorem queueLine_curDec (b : List Byte) (s : State) : (queueLine b s).curDec = s.curDec := rfl
@[simp] theorem queueLine_curStatus (b : List Byte) (s : State) : (queueLine b s).curStatus = s.curStatus := rfl
@[simp] theorem queueLine_wT0 (b : List Byte) (s : State) : (queueLine b s).wT0 = s.wT0 := rfl
@[simp] theorem queueLine_wLimit (b : List Byte) (s : State) : (queueLine b s).wLimit = s.wLimit := rfl
@[simp] theorem queueLine_trState (b : List Byte) (s : State) : (queueLine b s).trState = s.trState := rfl
@[simp] theorem queueLine_trT0 (b : List Byte) (s : State) : (queueLine b s).trT0 = s.trT0 := rfl
@[simp] theorem queueLine_trLimit (b : List Byte) (s : State) : (queueLine b s).trLimit = s.trLimit := rfl
@[simp] theorem queueLine_trResult (b : List Byte) (s : State) : (queueLine b s).trResult = s.trResult := rfl
@[simp] theorem queueLine_txBuf (b : List Byte) (s : State) : (queueLine b s).txBuf = s.txBuf := rfl
@[simp] theorem queueLine_txLen (b : List Byte) (s : State) : (queueLine b s).txLen = s.txLen := rfl
@[simp] theorem queueLine_rxBuf (b : List Byte) (s : State) : (queueLine b s).rxBuf = s.rxBuf := rfl
@[simp] theorem queueLine_rxLen (b : List Byte) (s : State) : (queueLine b s).rxLen = s.rxLen := rfl
@[simp] theorem queueLine_rxLock (b : List Byte) (s : State) : (queueLine b s).rxLock = s.rxLock := rfl
@[simp] theorem queueLine_rxExpect (b : List Byte) (s : State) : (queueLine b s).rxExpect = s.rxExpect := rfl
@[simp] theorem queueLine_isrState (b : List Byte) (s : State) : (queueLine b s).isrState = s.isrState := rfl
@[simp] theorem queueLine_isrT0 (b : List Byte) (s : State) : (queueLine b s).isrT0 = s.isrT0 := rfl
@[simp] theorem queueLine_irqPend (b : List Byte) (s : State) : (queueLine b s).irqPend = s.irqPend := rfl
@[simp] theorem queueLine_prevPhase (b : List Byte) (s : State) : (queueLine b s).prevPhase = s.prevPhase := rfl
@[simp] theorem queueLine_dev (b : List Byte) (s : State) : (queueLine b s).dev = s.dev := rfl
@[simp] theorem queueLine_chain (b : List Byte) (s : State) : (queueLine b s).chain = s.chain := rfl
@[simp] theorem queueLine_lastChk (b : List Byte) (s : State) : (queueLine b s).lastChk = s.lastChk := rfl
@[simp] theorem queueLine_lastChkV (b : List Byte) (s : State) : (queueLine b s).lastChkV = s.lastChkV := rfl
@[simp] theorem queueLine_lastErr (b : List Byte) (s : State) : (queueLine b s).lastErr = s.lastErr := rfl
@[simp] theorem queueLine_errFlags (b : List Byte) (s : State) : (queueLine b s).errFlags = s.errFlags := rfl
@[simp] theorem queueLine_timer (b : List Byte) (s : State) : (queueLine b s).timer = s.timer := rfl
@[simp] theorem queueLine_dispValid (b : List Byte) (s : State) : (queueLine b s).dispValid = s.dispValid := rfl
@[simp] theorem queueLine_dispSlot (b : List Byte) (s : State) : (queueLine b s).dispSlot = s.dispSlot := rfl
@[simp] theorem queueLine_dispKind (b : List Byte) (s : State) : (queueLine b s).dispKind = s.dispKind := rfl
@[simp] theorem queueLine_dispCap (b : List Byte) (s : State) : (queueLine b s).dispCap = s.dispCap := rfl
@[simp] theorem queueLine_dispCmd (b : List Byte) (s : State) : (queueLine b s).dispCmd = s.dispCmd := rfl
@[simp] theorem queueLine_phase (b : List Byte) (s : State) : (queueLine b s).phase = s.phase := rfl
@[simp] theorem queueLine_reqPin (b : List Byte) (s : State) : (queueLine b s).reqPin = s.reqPin := rfl
@[simp] theorem queueLine_txBits (b : List Byte) (s : State) : (queueLine b s).txBits = s.txBits := rfl
@[simp] theorem queueLine_hostLine (b : List Byte) (s : State) : (queueLine b s).hostLine = some (s.hostLine.getD [] ++ b) := rfl
@[simp] theorem queueLine_samples (b : List Byte) (s : State) : (queueLine b s).samples = s.samples := rfl
@[simp] theorem queueLine_reqApp (b : List Byte) (s : State) : (queueLine b s).reqApp = s.reqApp := rfl
@[simp] theorem queueLine_reqDev (b : List Byte) (s : State) : (queueLine b s).reqDev = s.reqDev := rfl
@[simp] theorem queueLine_busy (b : List Byte) (s : State) : (queueLine b s).busy = s.busy := rfl
@[simp] theorem queueLine_replyApp (b : List Byte) (s : State) : (queueLine b s).replyApp = s.replyApp := rfl
@[simp] theorem queueLine_replyDev (b : List Byte) (s : State) : (queueLine b s).replyDev = s.replyDev := rfl
@[simp] theorem queueLine_csrOut (b : List Byte) (s : State) : (queueLine b s).csrOut = s.csrOut := rfl
@[simp] theorem queueLine_refusedOp (b : List Byte) (s : State) : (queueLine b s).refusedOp = s.refusedOp := rfl
@[simp] theorem queueLine_script (b : List Byte) (s : State) : (queueLine b s).script = s.script := rfl
@[simp] theorem queueLine_turn (b : List Byte) (s : State) : (queueLine b s).turn = s.turn := rfl
@[simp] theorem queueLine_draws (b : List Byte) (s : State) : (queueLine b s).draws = s.draws := rfl
@[simp] theorem queueLine_hostTimeouts (b : List Byte) (s : State) : (queueLine b s).hostTimeouts = s.hostTimeouts := rfl
@[simp] theorem queueLine_txChecked (b : List Byte) (s : State) : (queueLine b s).txChecked = s.txChecked := rfl
@[simp] theorem queueLine_expectFailed (b : List Byte) (s : State) : (queueLine b s).expectFailed = s.expectFailed := rfl

/-! ### readTx -/

@[simp] theorem readTx_params (k : Nat) (s : State) : (readTx k s).params = s.params := rfl
@[simp] theorem readTx_eng (k : Nat) (s : State) : (readTx k s).eng = s.eng := rfl
@[simp] theorem readTx_ack (k : Nat) (s : State) : (readTx k s).ack = s.ack := rfl
@[simp] theorem readTx_staged (k : Nat) (s : State) : (readTx k s).staged = s.staged := rfl
@[simp] theorem readTx_mb (k : Nat) (s : State) : (readTx k s).mb = s.mb := rfl
@[simp] theorem readTx_mbLen (k : Nat) (s : State) : (readTx k s).mbLen = s.mbLen := rfl
@[simp] theorem readTx_mbLock (k : Nat) (s : State) : (readTx k s).mbLock = s.mbLock := rfl
@[simp] theorem readTx_curKind (k : Nat) (s : State) : (readTx k s).curKind = s.curKind := rfl
@[simp] theorem readTx_curSlot (k : Nat) (s : State) : (readTx k s).curSlot = s.curSlot := rfl
@[simp] theorem readTx_curDec (k : Nat) (s : State) : (readTx k s).curDec = s.curDec := rfl
@[simp] theorem readTx_curStatus (k : Nat) (s : State) : (readTx k s).curStatus = s.curStatus := rfl
@[simp] theorem readTx_wT0 (k : Nat) (s : State) : (readTx k s).wT0 = s.wT0 := rfl
@[simp] theorem readTx_wLimit (k : Nat) (s : State) : (readTx k s).wLimit = s.wLimit := rfl
@[simp] theorem readTx_trState (k : Nat) (s : State) : (readTx k s).trState = s.trState := rfl
@[simp] theorem readTx_trT0 (k : Nat) (s : State) : (readTx k s).trT0 = s.trT0 := rfl
@[simp] theorem readTx_trLimit (k : Nat) (s : State) : (readTx k s).trLimit = s.trLimit := rfl
@[simp] theorem readTx_trResult (k : Nat) (s : State) : (readTx k s).trResult = s.trResult := rfl
@[simp] theorem readTx_txBuf (k : Nat) (s : State) : (readTx k s).txBuf = s.txBuf := rfl
@[simp] theorem readTx_txLen (k : Nat) (s : State) : (readTx k s).txLen = s.txLen := rfl
@[simp] theorem readTx_rxBuf (k : Nat) (s : State) : (readTx k s).rxBuf = s.rxBuf := rfl
@[simp] theorem readTx_rxLen (k : Nat) (s : State) : (readTx k s).rxLen = s.rxLen := rfl
@[simp] theorem readTx_rxLock (k : Nat) (s : State) : (readTx k s).rxLock = s.rxLock := rfl
@[simp] theorem readTx_rxExpect (k : Nat) (s : State) : (readTx k s).rxExpect = s.rxExpect := rfl
@[simp] theorem readTx_isrState (k : Nat) (s : State) : (readTx k s).isrState = s.isrState := rfl
@[simp] theorem readTx_isrT0 (k : Nat) (s : State) : (readTx k s).isrT0 = s.isrT0 := rfl
@[simp] theorem readTx_irqPend (k : Nat) (s : State) : (readTx k s).irqPend = s.irqPend := rfl
@[simp] theorem readTx_prevPhase (k : Nat) (s : State) : (readTx k s).prevPhase = s.prevPhase := rfl
@[simp] theorem readTx_dev (k : Nat) (s : State) : (readTx k s).dev = s.dev := rfl
@[simp] theorem readTx_chain (k : Nat) (s : State) : (readTx k s).chain = s.chain := rfl
@[simp] theorem readTx_lastChk (k : Nat) (s : State) : (readTx k s).lastChk = s.lastChk := rfl
@[simp] theorem readTx_lastChkV (k : Nat) (s : State) : (readTx k s).lastChkV = s.lastChkV := rfl
@[simp] theorem readTx_lastErr (k : Nat) (s : State) : (readTx k s).lastErr = s.lastErr := rfl
@[simp] theorem readTx_errFlags (k : Nat) (s : State) : (readTx k s).errFlags = s.errFlags := rfl
@[simp] theorem readTx_timer (k : Nat) (s : State) : (readTx k s).timer = s.timer := rfl
@[simp] theorem readTx_dispValid (k : Nat) (s : State) : (readTx k s).dispValid = s.dispValid := rfl
@[simp] theorem readTx_dispSlot (k : Nat) (s : State) : (readTx k s).dispSlot = s.dispSlot := rfl
@[simp] theorem readTx_dispKind (k : Nat) (s : State) : (readTx k s).dispKind = s.dispKind := rfl
@[simp] theorem readTx_dispCap (k : Nat) (s : State) : (readTx k s).dispCap = s.dispCap := rfl
@[simp] theorem readTx_dispCmd (k : Nat) (s : State) : (readTx k s).dispCmd = s.dispCmd := rfl
@[simp] theorem readTx_phase (k : Nat) (s : State) : (readTx k s).phase = s.phase := rfl
@[simp] theorem readTx_reqPin (k : Nat) (s : State) : (readTx k s).reqPin = s.reqPin := rfl
@[simp] theorem readTx_txBits (k : Nat) (s : State) : (readTx k s).txBits = s.txBits.drop k := rfl
@[simp] theorem readTx_hostLine (k : Nat) (s : State) : (readTx k s).hostLine = s.hostLine := rfl
@[simp] theorem readTx_samples (k : Nat) (s : State) : (readTx k s).samples = s.samples := rfl
@[simp] theorem readTx_reqApp (k : Nat) (s : State) : (readTx k s).reqApp = s.reqApp := rfl
@[simp] theorem readTx_reqDev (k : Nat) (s : State) : (readTx k s).reqDev = s.reqDev := rfl
@[simp] theorem readTx_busy (k : Nat) (s : State) : (readTx k s).busy = s.busy := rfl
@[simp] theorem readTx_replyApp (k : Nat) (s : State) : (readTx k s).replyApp = s.replyApp := rfl
@[simp] theorem readTx_replyDev (k : Nat) (s : State) : (readTx k s).replyDev = s.replyDev := rfl
@[simp] theorem readTx_csrOut (k : Nat) (s : State) : (readTx k s).csrOut = s.csrOut := rfl
@[simp] theorem readTx_refusedOp (k : Nat) (s : State) : (readTx k s).refusedOp = s.refusedOp := rfl
@[simp] theorem readTx_script (k : Nat) (s : State) : (readTx k s).script = s.script := rfl
@[simp] theorem readTx_turn (k : Nat) (s : State) : (readTx k s).turn = s.turn := rfl
@[simp] theorem readTx_draws (k : Nat) (s : State) : (readTx k s).draws = s.draws := rfl
@[simp] theorem readTx_hostTimeouts (k : Nat) (s : State) : (readTx k s).hostTimeouts = s.hostTimeouts := rfl
@[simp] theorem readTx_txChecked (k : Nat) (s : State) : (readTx k s).txChecked = s.txChecked - k := rfl
@[simp] theorem readTx_expectFailed (k : Nat) (s : State) : (readTx k s).expectFailed = s.expectFailed := rfl

/-! ### expectTx -/

@[simp] theorem expectTx_params (b : List Byte) (s : State) : (expectTx b s).params = s.params := rfl
@[simp] theorem expectTx_eng (b : List Byte) (s : State) : (expectTx b s).eng = s.eng := rfl
@[simp] theorem expectTx_ack (b : List Byte) (s : State) : (expectTx b s).ack = s.ack := rfl
@[simp] theorem expectTx_staged (b : List Byte) (s : State) : (expectTx b s).staged = s.staged := rfl
@[simp] theorem expectTx_mb (b : List Byte) (s : State) : (expectTx b s).mb = s.mb := rfl
@[simp] theorem expectTx_mbLen (b : List Byte) (s : State) : (expectTx b s).mbLen = s.mbLen := rfl
@[simp] theorem expectTx_mbLock (b : List Byte) (s : State) : (expectTx b s).mbLock = s.mbLock := rfl
@[simp] theorem expectTx_curKind (b : List Byte) (s : State) : (expectTx b s).curKind = s.curKind := rfl
@[simp] theorem expectTx_curSlot (b : List Byte) (s : State) : (expectTx b s).curSlot = s.curSlot := rfl
@[simp] theorem expectTx_curDec (b : List Byte) (s : State) : (expectTx b s).curDec = s.curDec := rfl
@[simp] theorem expectTx_curStatus (b : List Byte) (s : State) : (expectTx b s).curStatus = s.curStatus := rfl
@[simp] theorem expectTx_wT0 (b : List Byte) (s : State) : (expectTx b s).wT0 = s.wT0 := rfl
@[simp] theorem expectTx_wLimit (b : List Byte) (s : State) : (expectTx b s).wLimit = s.wLimit := rfl
@[simp] theorem expectTx_trState (b : List Byte) (s : State) : (expectTx b s).trState = s.trState := rfl
@[simp] theorem expectTx_trT0 (b : List Byte) (s : State) : (expectTx b s).trT0 = s.trT0 := rfl
@[simp] theorem expectTx_trLimit (b : List Byte) (s : State) : (expectTx b s).trLimit = s.trLimit := rfl
@[simp] theorem expectTx_trResult (b : List Byte) (s : State) : (expectTx b s).trResult = s.trResult := rfl
@[simp] theorem expectTx_txBuf (b : List Byte) (s : State) : (expectTx b s).txBuf = s.txBuf := rfl
@[simp] theorem expectTx_txLen (b : List Byte) (s : State) : (expectTx b s).txLen = s.txLen := rfl
@[simp] theorem expectTx_rxBuf (b : List Byte) (s : State) : (expectTx b s).rxBuf = s.rxBuf := rfl
@[simp] theorem expectTx_rxLen (b : List Byte) (s : State) : (expectTx b s).rxLen = s.rxLen := rfl
@[simp] theorem expectTx_rxLock (b : List Byte) (s : State) : (expectTx b s).rxLock = s.rxLock := rfl
@[simp] theorem expectTx_rxExpect (b : List Byte) (s : State) : (expectTx b s).rxExpect = s.rxExpect := rfl
@[simp] theorem expectTx_isrState (b : List Byte) (s : State) : (expectTx b s).isrState = s.isrState := rfl
@[simp] theorem expectTx_isrT0 (b : List Byte) (s : State) : (expectTx b s).isrT0 = s.isrT0 := rfl
@[simp] theorem expectTx_irqPend (b : List Byte) (s : State) : (expectTx b s).irqPend = s.irqPend := rfl
@[simp] theorem expectTx_prevPhase (b : List Byte) (s : State) : (expectTx b s).prevPhase = s.prevPhase := rfl
@[simp] theorem expectTx_dev (b : List Byte) (s : State) : (expectTx b s).dev = s.dev := rfl
@[simp] theorem expectTx_chain (b : List Byte) (s : State) : (expectTx b s).chain = s.chain := rfl
@[simp] theorem expectTx_lastChk (b : List Byte) (s : State) : (expectTx b s).lastChk = s.lastChk := rfl
@[simp] theorem expectTx_lastChkV (b : List Byte) (s : State) : (expectTx b s).lastChkV = s.lastChkV := rfl
@[simp] theorem expectTx_lastErr (b : List Byte) (s : State) : (expectTx b s).lastErr = s.lastErr := rfl
@[simp] theorem expectTx_errFlags (b : List Byte) (s : State) : (expectTx b s).errFlags = s.errFlags := rfl
@[simp] theorem expectTx_timer (b : List Byte) (s : State) : (expectTx b s).timer = s.timer := rfl
@[simp] theorem expectTx_dispValid (b : List Byte) (s : State) : (expectTx b s).dispValid = s.dispValid := rfl
@[simp] theorem expectTx_dispSlot (b : List Byte) (s : State) : (expectTx b s).dispSlot = s.dispSlot := rfl
@[simp] theorem expectTx_dispKind (b : List Byte) (s : State) : (expectTx b s).dispKind = s.dispKind := rfl
@[simp] theorem expectTx_dispCap (b : List Byte) (s : State) : (expectTx b s).dispCap = s.dispCap := rfl
@[simp] theorem expectTx_dispCmd (b : List Byte) (s : State) : (expectTx b s).dispCmd = s.dispCmd := rfl
@[simp] theorem expectTx_phase (b : List Byte) (s : State) : (expectTx b s).phase = s.phase := rfl
@[simp] theorem expectTx_reqPin (b : List Byte) (s : State) : (expectTx b s).reqPin = s.reqPin := rfl
@[simp] theorem expectTx_txBits (b : List Byte) (s : State) : (expectTx b s).txBits = s.txBits := rfl
@[simp] theorem expectTx_hostLine (b : List Byte) (s : State) : (expectTx b s).hostLine = s.hostLine := rfl
@[simp] theorem expectTx_samples (b : List Byte) (s : State) : (expectTx b s).samples = s.samples := rfl
@[simp] theorem expectTx_reqApp (b : List Byte) (s : State) : (expectTx b s).reqApp = s.reqApp := rfl
@[simp] theorem expectTx_reqDev (b : List Byte) (s : State) : (expectTx b s).reqDev = s.reqDev := rfl
@[simp] theorem expectTx_busy (b : List Byte) (s : State) : (expectTx b s).busy = s.busy := rfl
@[simp] theorem expectTx_replyApp (b : List Byte) (s : State) : (expectTx b s).replyApp = s.replyApp := rfl
@[simp] theorem expectTx_replyDev (b : List Byte) (s : State) : (expectTx b s).replyDev = s.replyDev := rfl
@[simp] theorem expectTx_csrOut (b : List Byte) (s : State) : (expectTx b s).csrOut = s.csrOut := rfl
@[simp] theorem expectTx_refusedOp (b : List Byte) (s : State) : (expectTx b s).refusedOp = s.refusedOp := rfl
@[simp] theorem expectTx_script (b : List Byte) (s : State) : (expectTx b s).script = s.script := rfl
@[simp] theorem expectTx_turn (b : List Byte) (s : State) : (expectTx b s).turn = s.turn := rfl
@[simp] theorem expectTx_draws (b : List Byte) (s : State) : (expectTx b s).draws = s.draws := rfl
@[simp] theorem expectTx_hostTimeouts (b : List Byte) (s : State) : (expectTx b s).hostTimeouts = s.hostTimeouts := rfl
@[simp] theorem expectTx_txChecked (b : List Byte) (s : State) : (expectTx b s).txChecked = s.txBits.length := rfl
@[simp] theorem expectTx_expectFailed (b : List Byte) (s : State) : (expectTx b s).expectFailed = (s.expectFailed || s.txBits.drop s.txChecked != serialize b) := rfl

/-! ### deliver -/

@[simp] theorem deliver_params (w : Issuer) (r : Reply) (s : State) : (deliver w r s).params = s.params := by cases w <;> rfl
@[simp] theorem deliver_eng (w : Issuer) (r : Reply) (s : State) : (deliver w r s).eng = s.eng := by cases w <;> rfl
@[simp] theorem deliver_ack (w : Issuer) (r : Reply) (s : State) : (deliver w r s).ack = s.ack := by cases w <;> rfl
@[simp] theorem deliver_staged (w : Issuer) (r : Reply) (s : State) : (deliver w r s).staged = s.staged := by cases w <;> rfl
@[simp] theorem deliver_mb (w : Issuer) (r : Reply) (s : State) : (deliver w r s).mb = s.mb := by cases w <;> rfl
@[simp] theorem deliver_mbLen (w : Issuer) (r : Reply) (s : State) : (deliver w r s).mbLen = s.mbLen := by cases w <;> rfl
@[simp] theorem deliver_mbLock (w : Issuer) (r : Reply) (s : State) : (deliver w r s).mbLock = s.mbLock := by cases w <;> rfl
@[simp] theorem deliver_curKind (w : Issuer) (r : Reply) (s : State) : (deliver w r s).curKind = s.curKind := by cases w <;> rfl
@[simp] theorem deliver_curSlot (w : Issuer) (r : Reply) (s : State) : (deliver w r s).curSlot = s.curSlot := by cases w <;> rfl
@[simp] theorem deliver_curDec (w : Issuer) (r : Reply) (s : State) : (deliver w r s).curDec = s.curDec := by cases w <;> rfl
@[simp] theorem deliver_curStatus (w : Issuer) (r : Reply) (s : State) : (deliver w r s).curStatus = s.curStatus := by cases w <;> rfl
@[simp] theorem deliver_wT0 (w : Issuer) (r : Reply) (s : State) : (deliver w r s).wT0 = s.wT0 := by cases w <;> rfl
@[simp] theorem deliver_wLimit (w : Issuer) (r : Reply) (s : State) : (deliver w r s).wLimit = s.wLimit := by cases w <;> rfl
@[simp] theorem deliver_trState (w : Issuer) (r : Reply) (s : State) : (deliver w r s).trState = s.trState := by cases w <;> rfl
@[simp] theorem deliver_trT0 (w : Issuer) (r : Reply) (s : State) : (deliver w r s).trT0 = s.trT0 := by cases w <;> rfl
@[simp] theorem deliver_trLimit (w : Issuer) (r : Reply) (s : State) : (deliver w r s).trLimit = s.trLimit := by cases w <;> rfl
@[simp] theorem deliver_trResult (w : Issuer) (r : Reply) (s : State) : (deliver w r s).trResult = s.trResult := by cases w <;> rfl
@[simp] theorem deliver_txBuf (w : Issuer) (r : Reply) (s : State) : (deliver w r s).txBuf = s.txBuf := by cases w <;> rfl
@[simp] theorem deliver_txLen (w : Issuer) (r : Reply) (s : State) : (deliver w r s).txLen = s.txLen := by cases w <;> rfl
@[simp] theorem deliver_rxBuf (w : Issuer) (r : Reply) (s : State) : (deliver w r s).rxBuf = s.rxBuf := by cases w <;> rfl
@[simp] theorem deliver_rxLen (w : Issuer) (r : Reply) (s : State) : (deliver w r s).rxLen = s.rxLen := by cases w <;> rfl
@[simp] theorem deliver_rxLock (w : Issuer) (r : Reply) (s : State) : (deliver w r s).rxLock = s.rxLock := by cases w <;> rfl
@[simp] theorem deliver_rxExpect (w : Issuer) (r : Reply) (s : State) : (deliver w r s).rxExpect = s.rxExpect := by cases w <;> rfl
@[simp] theorem deliver_isrState (w : Issuer) (r : Reply) (s : State) : (deliver w r s).isrState = s.isrState := by cases w <;> rfl
@[simp] theorem deliver_isrT0 (w : Issuer) (r : Reply) (s : State) : (deliver w r s).isrT0 = s.isrT0 := by cases w <;> rfl
@[simp] theorem deliver_irqPend (w : Issuer) (r : Reply) (s : State) : (deliver w r s).irqPend = s.irqPend := by cases w <;> rfl
@[simp] theorem deliver_prevPhase (w : Issuer) (r : Reply) (s : State) : (deliver w r s).prevPhase = s.prevPhase := by cases w <;> rfl
@[simp] theorem deliver_dev (w : Issuer) (r : Reply) (s : State) : (deliver w r s).dev = s.dev := by cases w <;> rfl
@[simp] theorem deliver_chain (w : Issuer) (r : Reply) (s : State) : (deliver w r s).chain = s.chain := by cases w <;> rfl
@[simp] theorem deliver_lastChk (w : Issuer) (r : Reply) (s : State) : (deliver w r s).lastChk = s.lastChk := by cases w <;> rfl
@[simp] theorem deliver_lastChkV (w : Issuer) (r : Reply) (s : State) : (deliver w r s).lastChkV = s.lastChkV := by cases w <;> rfl
@[simp] theorem deliver_lastErr (w : Issuer) (r : Reply) (s : State) : (deliver w r s).lastErr = s.lastErr := by cases w <;> rfl
@[simp] theorem deliver_errFlags (w : Issuer) (r : Reply) (s : State) : (deliver w r s).errFlags = s.errFlags := by cases w <;> rfl
@[simp] theorem deliver_timer (w : Issuer) (r : Reply) (s : State) : (deliver w r s).timer = s.timer := by cases w <;> rfl
@[simp] theorem deliver_dispValid (w : Issuer) (r : Reply) (s : State) : (deliver w r s).dispValid = s.dispValid := by cases w <;> rfl
@[simp] theorem deliver_dispSlot (w : Issuer) (r : Reply) (s : State) : (deliver w r s).dispSlot = s.dispSlot := by cases w <;> rfl
@[simp] theorem deliver_dispKind (w : Issuer) (r : Reply) (s : State) : (deliver w r s).dispKind = s.dispKind := by cases w <;> rfl
@[simp] theorem deliver_dispCap (w : Issuer) (r : Reply) (s : State) : (deliver w r s).dispCap = s.dispCap := by cases w <;> rfl
@[simp] theorem deliver_dispCmd (w : Issuer) (r : Reply) (s : State) : (deliver w r s).dispCmd = s.dispCmd := by cases w <;> rfl
@[simp] theorem deliver_phase (w : Issuer) (r : Reply) (s : State) : (deliver w r s).phase = s.phase := by cases w <;> rfl
@[simp] theorem deliver_reqPin (w : Issuer) (r : Reply) (s : State) : (deliver w r s).reqPin = s.reqPin := by cases w <;> rfl
@[simp] theorem deliver_txBits (w : Issuer) (r : Reply) (s : State) : (deliver w r s).txBits = s.txBits := by cases w <;> rfl
@[simp] theorem deliver_hostLine (w : Issuer) (r : Reply) (s : State) : (deliver w r s).hostLine = s.hostLine := by cases w <;> rfl
@[simp] theorem deliver_samples (w : Issuer) (r : Reply) (s : State) : (deliver w r s).samples = s.samples := by cases w <;> rfl
@[simp] theorem deliver_reqApp (w : Issuer) (r : Reply) (s : State) : (deliver w r s).reqApp = s.reqApp := by cases w <;> rfl
@[simp] theorem deliver_reqDev (w : Issuer) (r : Reply) (s : State) : (deliver w r s).reqDev = s.reqDev := by cases w <;> rfl
@[simp] theorem deliver_busy (w : Issuer) (r : Reply) (s : State) : (deliver w r s).busy = s.busy := by cases w <;> rfl
@[simp] theorem deliver_csrOut (w : Issuer) (r : Reply) (s : State) : (deliver w r s).csrOut = s.csrOut := by cases w <;> rfl
@[simp] theorem deliver_refusedOp (w : Issuer) (r : Reply) (s : State) : (deliver w r s).refusedOp = s.refusedOp := by cases w <;> rfl
@[simp] theorem deliver_script (w : Issuer) (r : Reply) (s : State) : (deliver w r s).script = s.script := by cases w <;> rfl
@[simp] theorem deliver_turn (w : Issuer) (r : Reply) (s : State) : (deliver w r s).turn = s.turn := by cases w <;> rfl
@[simp] theorem deliver_draws (w : Issuer) (r : Reply) (s : State) : (deliver w r s).draws = s.draws := by cases w <;> rfl
@[simp] theorem deliver_hostTimeouts (w : Issuer) (r : Reply) (s : State) : (deliver w r s).hostTimeouts = s.hostTimeouts := by cases w <;> rfl
@[simp] theorem deliver_txChecked (w : Issuer) (r : Reply) (s : State) : (deliver w r s).txChecked = s.txChecked := by cases w <;> rfl
@[simp] theorem deliver_expectFailed (w : Issuer) (r : Reply) (s : State) : (deliver w r s).expectFailed = s.expectFailed := by cases w <;> rfl

/-! ### refuse -/

@[simp] theorem refuse_params (w : Issuer) (s : State) : (refuse w s).params = s.params := by cases w <;> rfl
@[simp] theorem refuse_eng (w : Issuer) (s : State) : (refuse w s).eng = s.eng := by cases w <;> rfl
@[simp] theorem refuse_ack (w : Issuer) (s : State) : (refuse w s).ack = s.ack := by cases w <;> rfl
@[simp] theorem refuse_staged (w : Issuer) (s : State) : (refuse w s).staged = s.staged := by cases w <;> rfl
@[simp] theorem refuse_mb (w : Issuer) (s : State) : (refuse w s).mb = s.mb := by cases w <;> rfl
@[simp] theorem refuse_mbLen (w : Issuer) (s : State) : (refuse w s).mbLen = s.mbLen := by cases w <;> rfl
@[simp] theorem refuse_mbLock (w : Issuer) (s : State) : (refuse w s).mbLock = s.mbLock := by cases w <;> rfl
@[simp] theorem refuse_curKind (w : Issuer) (s : State) : (refuse w s).curKind = s.curKind := by cases w <;> rfl
@[simp] theorem refuse_curSlot (w : Issuer) (s : State) : (refuse w s).curSlot = s.curSlot := by cases w <;> rfl
@[simp] theorem refuse_curDec (w : Issuer) (s : State) : (refuse w s).curDec = s.curDec := by cases w <;> rfl
@[simp] theorem refuse_curStatus (w : Issuer) (s : State) : (refuse w s).curStatus = s.curStatus := by cases w <;> rfl
@[simp] theorem refuse_wT0 (w : Issuer) (s : State) : (refuse w s).wT0 = s.wT0 := by cases w <;> rfl
@[simp] theorem refuse_wLimit (w : Issuer) (s : State) : (refuse w s).wLimit = s.wLimit := by cases w <;> rfl
@[simp] theorem refuse_trState (w : Issuer) (s : State) : (refuse w s).trState = s.trState := by cases w <;> rfl
@[simp] theorem refuse_trT0 (w : Issuer) (s : State) : (refuse w s).trT0 = s.trT0 := by cases w <;> rfl
@[simp] theorem refuse_trLimit (w : Issuer) (s : State) : (refuse w s).trLimit = s.trLimit := by cases w <;> rfl
@[simp] theorem refuse_trResult (w : Issuer) (s : State) : (refuse w s).trResult = s.trResult := by cases w <;> rfl
@[simp] theorem refuse_txBuf (w : Issuer) (s : State) : (refuse w s).txBuf = s.txBuf := by cases w <;> rfl
@[simp] theorem refuse_txLen (w : Issuer) (s : State) : (refuse w s).txLen = s.txLen := by cases w <;> rfl
@[simp] theorem refuse_rxBuf (w : Issuer) (s : State) : (refuse w s).rxBuf = s.rxBuf := by cases w <;> rfl
@[simp] theorem refuse_rxLen (w : Issuer) (s : State) : (refuse w s).rxLen = s.rxLen := by cases w <;> rfl
@[simp] theorem refuse_rxLock (w : Issuer) (s : State) : (refuse w s).rxLock = s.rxLock := by cases w <;> rfl
@[simp] theorem refuse_rxExpect (w : Issuer) (s : State) : (refuse w s).rxExpect = s.rxExpect := by cases w <;> rfl
@[simp] theorem refuse_isrState (w : Issuer) (s : State) : (refuse w s).isrState = s.isrState := by cases w <;> rfl
@[simp] theorem refuse_isrT0 (w : Issuer) (s : State) : (refuse w s).isrT0 = s.isrT0 := by cases w <;> rfl
@[simp] theorem refuse_irqPend (w : Issuer) (s : State) : (refuse w s).irqPend = s.irqPend := by cases w <;> rfl
@[simp] theorem refuse_prevPhase (w : Issuer) (s : State) : (refuse w s).prevPhase = s.prevPhase := by cases w <;> rfl
@[simp] theorem refuse_dev (w : Issuer) (s : State) : (refuse w s).dev = s.dev := by cases w <;> rfl
@[simp] theorem refuse_chain (w : Issuer) (s : State) : (refuse w s).chain = s.chain := by cases w <;> rfl
@[simp] theorem refuse_lastChk (w : Issuer) (s : State) : (refuse w s).lastChk = s.lastChk := by cases w <;> rfl
@[simp] theorem refuse_lastChkV (w : Issuer) (s : State) : (refuse w s).lastChkV = s.lastChkV := by cases w <;> rfl
@[simp] theorem refuse_lastErr (w : Issuer) (s : State) : (refuse w s).lastErr = s.lastErr := by cases w <;> rfl
@[simp] theorem refuse_errFlags (w : Issuer) (s : State) : (refuse w s).errFlags = s.errFlags := by cases w <;> rfl
@[simp] theorem refuse_timer (w : Issuer) (s : State) : (refuse w s).timer = s.timer := by cases w <;> rfl
@[simp] theorem refuse_dispValid (w : Issuer) (s : State) : (refuse w s).dispValid = s.dispValid := by cases w <;> rfl
@[simp] theorem refuse_dispSlot (w : Issuer) (s : State) : (refuse w s).dispSlot = s.dispSlot := by cases w <;> rfl
@[simp] theorem refuse_dispKind (w : Issuer) (s : State) : (refuse w s).dispKind = s.dispKind := by cases w <;> rfl
@[simp] theorem refuse_dispCap (w : Issuer) (s : State) : (refuse w s).dispCap = s.dispCap := by cases w <;> rfl
@[simp] theorem refuse_dispCmd (w : Issuer) (s : State) : (refuse w s).dispCmd = s.dispCmd := by cases w <;> rfl
@[simp] theorem refuse_phase (w : Issuer) (s : State) : (refuse w s).phase = s.phase := by cases w <;> rfl
@[simp] theorem refuse_reqPin (w : Issuer) (s : State) : (refuse w s).reqPin = s.reqPin := by cases w <;> rfl
@[simp] theorem refuse_txBits (w : Issuer) (s : State) : (refuse w s).txBits = s.txBits := by cases w <;> rfl
@[simp] theorem refuse_hostLine (w : Issuer) (s : State) : (refuse w s).hostLine = s.hostLine := by cases w <;> rfl
@[simp] theorem refuse_samples (w : Issuer) (s : State) : (refuse w s).samples = s.samples := by cases w <;> rfl
@[simp] theorem refuse_reqApp (w : Issuer) (s : State) : (refuse w s).reqApp = s.reqApp := by cases w <;> rfl
@[simp] theorem refuse_reqDev (w : Issuer) (s : State) : (refuse w s).reqDev = s.reqDev := by cases w <;> rfl
@[simp] theorem refuse_busy (w : Issuer) (s : State) : (refuse w s).busy = s.busy := by cases w <;> rfl
@[simp] theorem refuse_csrOut (w : Issuer) (s : State) : (refuse w s).csrOut = s.csrOut := by cases w <;> rfl
@[simp] theorem refuse_refusedOp (w : Issuer) (s : State) : (refuse w s).refusedOp = true := by cases w <;> rfl
@[simp] theorem refuse_script (w : Issuer) (s : State) : (refuse w s).script = s.script := by cases w <;> rfl
@[simp] theorem refuse_turn (w : Issuer) (s : State) : (refuse w s).turn = s.turn := by cases w <;> rfl
@[simp] theorem refuse_draws (w : Issuer) (s : State) : (refuse w s).draws = s.draws := by cases w <;> rfl
@[simp] theorem refuse_hostTimeouts (w : Issuer) (s : State) : (refuse w s).hostTimeouts = s.hostTimeouts := by cases w <;> rfl
@[simp] theorem refuse_txChecked (w : Issuer) (s : State) : (refuse w s).txChecked = s.txChecked := by cases w <;> rfl
@[simp] theorem refuse_expectFailed (w : Issuer) (s : State) : (refuse w s).expectFailed = s.expectFailed := by cases w <;> rfl

/-! ### failRequest -/

@[simp] theorem failRequest_params (w : Issuer) (e : Err) (s : State) : (failRequest w e s).params = s.params := by cases w <;> rfl
@[simp] theorem failRequest_eng (w : Issuer) (e : Err) (s : State) : (failRequest w e s).eng = s.eng := by cases w <;> rfl
@[simp] theorem failRequest_ack (w : Issuer) (e : Err) (s : State) : (failRequest w e s).ack = s.ack := by cases w <;> rfl
@[simp] theorem failRequest_staged (w : Issuer) (e : Err) (s : State) : (failRequest w e s).staged = s.staged := by cases w <;> rfl
@[simp] theorem failRequest_mb (w : Issuer) (e : Err) (s : State) : (failRequest w e s).mb = s.mb := by cases w <;> rfl
@[simp] theorem failRequest_mbLen (w : Issuer) (e : Err) (s : State) : (failRequest w e s).mbLen = s.mbLen := by cases w <;> rfl
@[simp] theorem failRequest_mbLock (w : Issuer) (e : Err) (s : State) : (failRequest w e s).mbLock = s.mbLock := by cases w <;> rfl
@[simp] theorem failRequest_curKind (w : Issuer) (e : Err) (s : State) : (failRequest w e s).curKind = s.curKind := by cases w <;> rfl
@[simp] theorem failRequest_curSlot (w : Issuer) (e : Err) (s : State) : (failRequest w e s).curSlot = s.curSlot := by cases w <;> rfl
@[simp] theorem failRequest_curDec (w : Issuer) (e : Err) (s : State) : (failRequest w e s).curDec = s.curDec := by cases w <;> rfl
@[simp] theorem failRequest_curStatus (w : Issuer) (e : Err) (s : State) : (failRequest w e s).curStatus = s.curStatus := by cases w <;> rfl
@[simp] theorem failRequest_wT0 (w : Issuer) (e : Err) (s : State) : (failRequest w e s).wT0 = s.wT0 := by cases w <;> rfl
@[simp] theorem failRequest_wLimit (w : Issuer) (e : Err) (s : State) : (failRequest w e s).wLimit = s.wLimit := by cases w <;> rfl
@[simp] theorem failRequest_trState (w : Issuer) (e : Err) (s : State) : (failRequest w e s).trState = s.trState := by cases w <;> rfl
@[simp] theorem failRequest_trT0 (w : Issuer) (e : Err) (s : State) : (failRequest w e s).trT0 = s.trT0 := by cases w <;> rfl
@[simp] theorem failRequest_trLimit (w : Issuer) (e : Err) (s : State) : (failRequest w e s).trLimit = s.trLimit := by cases w <;> rfl
@[simp] theorem failRequest_trResult (w : Issuer) (e : Err) (s : State) : (failRequest w e s).trResult = s.trResult := by cases w <;> rfl
@[simp] theorem failRequest_txBuf (w : Issuer) (e : Err) (s : State) : (failRequest w e s).txBuf = s.txBuf := by cases w <;> rfl
@[simp] theorem failRequest_txLen (w : Issuer) (e : Err) (s : State) : (failRequest w e s).txLen = s.txLen := by cases w <;> rfl
@[simp] theorem failRequest_rxBuf (w : Issuer) (e : Err) (s : State) : (failRequest w e s).rxBuf = s.rxBuf := by cases w <;> rfl
@[simp] theorem failRequest_rxLen (w : Issuer) (e : Err) (s : State) : (failRequest w e s).rxLen = s.rxLen := by cases w <;> rfl
@[simp] theorem failRequest_rxLock (w : Issuer) (e : Err) (s : State) : (failRequest w e s).rxLock = s.rxLock := by cases w <;> rfl
@[simp] theorem failRequest_rxExpect (w : Issuer) (e : Err) (s : State) : (failRequest w e s).rxExpect = s.rxExpect := by cases w <;> rfl
@[simp] theorem failRequest_isrState (w : Issuer) (e : Err) (s : State) : (failRequest w e s).isrState = s.isrState := by cases w <;> rfl
@[simp] theorem failRequest_isrT0 (w : Issuer) (e : Err) (s : State) : (failRequest w e s).isrT0 = s.isrT0 := by cases w <;> rfl
@[simp] theorem failRequest_irqPend (w : Issuer) (e : Err) (s : State) : (failRequest w e s).irqPend = s.irqPend := by cases w <;> rfl
@[simp] theorem failRequest_prevPhase (w : Issuer) (e : Err) (s : State) : (failRequest w e s).prevPhase = s.prevPhase := by cases w <;> rfl
@[simp] theorem failRequest_dev (w : Issuer) (e : Err) (s : State) : (failRequest w e s).dev = s.dev := by cases w <;> rfl
@[simp] theorem failRequest_chain (w : Issuer) (e : Err) (s : State) : (failRequest w e s).chain = s.chain := by cases w <;> rfl
@[simp] theorem failRequest_lastChk (w : Issuer) (e : Err) (s : State) : (failRequest w e s).lastChk = s.lastChk := by cases w <;> rfl
@[simp] theorem failRequest_lastChkV (w : Issuer) (e : Err) (s : State) : (failRequest w e s).lastChkV = s.lastChkV := by cases w <;> rfl
@[simp] theorem failRequest_lastErr (w : Issuer) (e : Err) (s : State) : (failRequest w e s).lastErr = e.code := by cases w <;> rfl
@[simp] theorem failRequest_errFlags (w : Issuer) (e : Err) (s : State) : (failRequest w e s).errFlags = s.errFlags ||| (1#16 <<< e.num) := by cases w <;> rfl
@[simp] theorem failRequest_timer (w : Issuer) (e : Err) (s : State) : (failRequest w e s).timer = s.timer := by cases w <;> rfl
@[simp] theorem failRequest_dispValid (w : Issuer) (e : Err) (s : State) : (failRequest w e s).dispValid = s.dispValid := by cases w <;> rfl
@[simp] theorem failRequest_dispSlot (w : Issuer) (e : Err) (s : State) : (failRequest w e s).dispSlot = s.dispSlot := by cases w <;> rfl
@[simp] theorem failRequest_dispKind (w : Issuer) (e : Err) (s : State) : (failRequest w e s).dispKind = s.dispKind := by cases w <;> rfl
@[simp] theorem failRequest_dispCap (w : Issuer) (e : Err) (s : State) : (failRequest w e s).dispCap = s.dispCap := by cases w <;> rfl
@[simp] theorem failRequest_dispCmd (w : Issuer) (e : Err) (s : State) : (failRequest w e s).dispCmd = s.dispCmd := by cases w <;> rfl
@[simp] theorem failRequest_phase (w : Issuer) (e : Err) (s : State) : (failRequest w e s).phase = s.phase := by cases w <;> rfl
@[simp] theorem failRequest_reqPin (w : Issuer) (e : Err) (s : State) : (failRequest w e s).reqPin = s.reqPin := by cases w <;> rfl
@[simp] theorem failRequest_txBits (w : Issuer) (e : Err) (s : State) : (failRequest w e s).txBits = s.txBits := by cases w <;> rfl
@[simp] theorem failRequest_hostLine (w : Issuer) (e : Err) (s : State) : (failRequest w e s).hostLine = s.hostLine := by cases w <;> rfl
@[simp] theorem failRequest_samples (w : Issuer) (e : Err) (s : State) : (failRequest w e s).samples = s.samples := by cases w <;> rfl
@[simp] theorem failRequest_reqApp (w : Issuer) (e : Err) (s : State) : (failRequest w e s).reqApp = s.reqApp := by cases w <;> rfl
@[simp] theorem failRequest_reqDev (w : Issuer) (e : Err) (s : State) : (failRequest w e s).reqDev = s.reqDev := by cases w <;> rfl
@[simp] theorem failRequest_busy (w : Issuer) (e : Err) (s : State) : (failRequest w e s).busy = s.busy := by cases w <;> rfl
@[simp] theorem failRequest_csrOut (w : Issuer) (e : Err) (s : State) : (failRequest w e s).csrOut = s.csrOut := by cases w <;> rfl
@[simp] theorem failRequest_refusedOp (w : Issuer) (e : Err) (s : State) : (failRequest w e s).refusedOp = s.refusedOp := by cases w <;> rfl
@[simp] theorem failRequest_script (w : Issuer) (e : Err) (s : State) : (failRequest w e s).script = s.script := by cases w <;> rfl
@[simp] theorem failRequest_turn (w : Issuer) (e : Err) (s : State) : (failRequest w e s).turn = s.turn := by cases w <;> rfl
@[simp] theorem failRequest_draws (w : Issuer) (e : Err) (s : State) : (failRequest w e s).draws = s.draws := by cases w <;> rfl
@[simp] theorem failRequest_hostTimeouts (w : Issuer) (e : Err) (s : State) : (failRequest w e s).hostTimeouts = s.hostTimeouts := by cases w <;> rfl
@[simp] theorem failRequest_txChecked (w : Issuer) (e : Err) (s : State) : (failRequest w e s).txChecked = s.txChecked := by cases w <;> rfl
@[simp] theorem failRequest_expectFailed (w : Issuer) (e : Err) (s : State) : (failRequest w e s).expectFailed = s.expectFailed := by cases w <;> rfl

/-! ### answerBusy -/

@[simp] theorem answerBusy_params (r : Reply) (s : State) : (answerBusy r s).params = s.params := by unfold answerBusy; split <;> rfl
@[simp] theorem answerBusy_eng (r : Reply) (s : State) : (answerBusy r s).eng = s.eng := by unfold answerBusy; split <;> rfl
@[simp] theorem answerBusy_ack (r : Reply) (s : State) : (answerBusy r s).ack = s.ack := by unfold answerBusy; split <;> rfl
@[simp] theorem answerBusy_staged (r : Reply) (s : State) : (answerBusy r s).staged = s.staged := by unfold answerBusy; split <;> rfl
@[simp] theorem answerBusy_mb (r : Reply) (s : State) : (answerBusy r s).mb = s.mb := by unfold answerBusy; split <;> rfl
@[simp] theorem answerBusy_mbLen (r : Reply) (s : State) : (answerBusy r s).mbLen = s.mbLen := by unfold answerBusy; split <;> rfl
@[simp] theorem answerBusy_mbLock (r : Reply) (s : State) : (answerBusy r s).mbLock = s.mbLock := by unfold answerBusy; split <;> rfl
@[simp] theorem answerBusy_curKind (r : Reply) (s : State) : (answerBusy r s).curKind = s.curKind := by unfold answerBusy; split <;> rfl
@[simp] theorem answerBusy_curSlot (r : Reply) (s : State) : (answerBusy r s).curSlot = s.curSlot := by unfold answerBusy; split <;> rfl
@[simp] theorem answerBusy_curDec (r : Reply) (s : State) : (answerBusy r s).curDec = s.curDec := by unfold answerBusy; split <;> rfl
@[simp] theorem answerBusy_curStatus (r : Reply) (s : State) : (answerBusy r s).curStatus = s.curStatus := by unfold answerBusy; split <;> rfl
@[simp] theorem answerBusy_wT0 (r : Reply) (s : State) : (answerBusy r s).wT0 = s.wT0 := by unfold answerBusy; split <;> rfl
@[simp] theorem answerBusy_wLimit (r : Reply) (s : State) : (answerBusy r s).wLimit = s.wLimit := by unfold answerBusy; split <;> rfl
@[simp] theorem answerBusy_trState (r : Reply) (s : State) : (answerBusy r s).trState = s.trState := by unfold answerBusy; split <;> rfl
@[simp] theorem answerBusy_trT0 (r : Reply) (s : State) : (answerBusy r s).trT0 = s.trT0 := by unfold answerBusy; split <;> rfl
@[simp] theorem answerBusy_trLimit (r : Reply) (s : State) : (answerBusy r s).trLimit = s.trLimit := by unfold answerBusy; split <;> rfl
@[simp] theorem answerBusy_trResult (r : Reply) (s : State) : (answerBusy r s).trResult = s.trResult := by unfold answerBusy; split <;> rfl
@[simp] theorem answerBusy_txBuf (r : Reply) (s : State) : (answerBusy r s).txBuf = s.txBuf := by unfold answerBusy; split <;> rfl
@[simp] theorem answerBusy_txLen (r : Reply) (s : State) : (answerBusy r s).txLen = s.txLen := by unfold answerBusy; split <;> rfl
@[simp] theorem answerBusy_rxBuf (r : Reply) (s : State) : (answerBusy r s).rxBuf = s.rxBuf := by unfold answerBusy; split <;> rfl
@[simp] theorem answerBusy_rxLen (r : Reply) (s : State) : (answerBusy r s).rxLen = s.rxLen := by unfold answerBusy; split <;> rfl
@[simp] theorem answerBusy_rxLock (r : Reply) (s : State) : (answerBusy r s).rxLock = s.rxLock := by unfold answerBusy; split <;> rfl
@[simp] theorem answerBusy_rxExpect (r : Reply) (s : State) : (answerBusy r s).rxExpect = s.rxExpect := by unfold answerBusy; split <;> rfl
@[simp] theorem answerBusy_isrState (r : Reply) (s : State) : (answerBusy r s).isrState = s.isrState := by unfold answerBusy; split <;> rfl
@[simp] theorem answerBusy_isrT0 (r : Reply) (s : State) : (answerBusy r s).isrT0 = s.isrT0 := by unfold answerBusy; split <;> rfl
@[simp] theorem answerBusy_irqPend (r : Reply) (s : State) : (answerBusy r s).irqPend = s.irqPend := by unfold answerBusy; split <;> rfl
@[simp] theorem answerBusy_prevPhase (r : Reply) (s : State) : (answerBusy r s).prevPhase = s.prevPhase := by unfold answerBusy; split <;> rfl
@[simp] theorem answerBusy_dev (r : Reply) (s : State) : (answerBusy r s).dev = s.dev := by unfold answerBusy; split <;> rfl
@[simp] theorem answerBusy_chain (r : Reply) (s : State) : (answerBusy r s).chain = s.chain := by unfold answerBusy; split <;> rfl
@[simp] theorem answerBusy_lastChk (r : Reply) (s : State) : (answerBusy r s).lastChk = s.lastChk := by unfold answerBusy; split <;> rfl
@[simp] theorem answerBusy_lastChkV (r : Reply) (s : State) : (answerBusy r s).lastChkV = s.lastChkV := by unfold answerBusy; split <;> rfl
@[simp] theorem answerBusy_lastErr (r : Reply) (s : State) : (answerBusy r s).lastErr = s.lastErr := by unfold answerBusy; split <;> rfl
@[simp] theorem answerBusy_errFlags (r : Reply) (s : State) : (answerBusy r s).errFlags = s.errFlags := by unfold answerBusy; split <;> rfl
@[simp] theorem answerBusy_timer (r : Reply) (s : State) : (answerBusy r s).timer = s.timer := by unfold answerBusy; split <;> rfl
@[simp] theorem answerBusy_dispValid (r : Reply) (s : State) : (answerBusy r s).dispValid = s.dispValid := by unfold answerBusy; split <;> rfl
@[simp] theorem answerBusy_dispSlot (r : Reply) (s : State) : (answerBusy r s).dispSlot = s.dispSlot := by unfold answerBusy; split <;> rfl
@[simp] theorem answerBusy_dispKind (r : Reply) (s : State) : (answerBusy r s).dispKind = s.dispKind := by unfold answerBusy; split <;> rfl
@[simp] theorem answerBusy_dispCap (r : Reply) (s : State) : (answerBusy r s).dispCap = s.dispCap := by unfold answerBusy; split <;> rfl
@[simp] theorem answerBusy_dispCmd (r : Reply) (s : State) : (answerBusy r s).dispCmd = s.dispCmd := by unfold answerBusy; split <;> rfl
@[simp] theorem answerBusy_phase (r : Reply) (s : State) : (answerBusy r s).phase = s.phase := by unfold answerBusy; split <;> rfl
@[simp] theorem answerBusy_reqPin (r : Reply) (s : State) : (answerBusy r s).reqPin = s.reqPin := by unfold answerBusy; split <;> rfl
@[simp] theorem answerBusy_txBits (r : Reply) (s : State) : (answerBusy r s).txBits = s.txBits := by unfold answerBusy; split <;> rfl
@[simp] theorem answerBusy_hostLine (r : Reply) (s : State) : (answerBusy r s).hostLine = s.hostLine := by unfold answerBusy; split <;> rfl
@[simp] theorem answerBusy_samples (r : Reply) (s : State) : (answerBusy r s).samples = s.samples := by unfold answerBusy; split <;> rfl
@[simp] theorem answerBusy_reqApp (r : Reply) (s : State) : (answerBusy r s).reqApp = s.reqApp := by unfold answerBusy; split <;> rfl
@[simp] theorem answerBusy_reqDev (r : Reply) (s : State) : (answerBusy r s).reqDev = s.reqDev := by unfold answerBusy; split <;> rfl
@[simp] theorem answerBusy_busy (r : Reply) (s : State) : (answerBusy r s).busy = false := by unfold answerBusy; split <;> simp_all
@[simp] theorem answerBusy_replyApp (r : Reply) (s : State) : (answerBusy r s).replyApp = s.replyApp := by unfold answerBusy; split <;> rfl
@[simp] theorem answerBusy_csrOut (r : Reply) (s : State) : (answerBusy r s).csrOut = s.csrOut := by unfold answerBusy; split <;> rfl
@[simp] theorem answerBusy_refusedOp (r : Reply) (s : State) : (answerBusy r s).refusedOp = s.refusedOp := by unfold answerBusy; split <;> rfl
@[simp] theorem answerBusy_script (r : Reply) (s : State) : (answerBusy r s).script = s.script := by unfold answerBusy; split <;> rfl
@[simp] theorem answerBusy_turn (r : Reply) (s : State) : (answerBusy r s).turn = s.turn := by unfold answerBusy; split <;> rfl
@[simp] theorem answerBusy_draws (r : Reply) (s : State) : (answerBusy r s).draws = s.draws := by unfold answerBusy; split <;> rfl
@[simp] theorem answerBusy_hostTimeouts (r : Reply) (s : State) : (answerBusy r s).hostTimeouts = s.hostTimeouts := by unfold answerBusy; split <;> rfl
@[simp] theorem answerBusy_txChecked (r : Reply) (s : State) : (answerBusy r s).txChecked = s.txChecked := by unfold answerBusy; split <;> rfl
@[simp] theorem answerBusy_expectFailed (r : Reply) (s : State) : (answerBusy r s).expectFailed = s.expectFailed := by unfold answerBusy; split <;> rfl

/-! ### endTransfer -/

@[simp] theorem endTransfer_params (t : TrResult) (r : Reply) (s : State) : (endTransfer t r s).params = s.params := by simp [endTransfer]
@[simp] theorem endTransfer_eng (t : TrResult) (r : Reply) (s : State) : (endTransfer t r s).eng = s.eng := by simp [endTransfer]
@[simp] theorem endTransfer_ack (t : TrResult) (r : Reply) (s : State) : (endTransfer t r s).ack = s.ack := by simp [endTransfer]
@[simp] theorem endTransfer_staged (t : TrResult) (r : Reply) (s : State) : (endTransfer t r s).staged = s.staged := by simp [endTransfer]
@[simp] theorem endTransfer_mb (t : TrResult) (r : Reply) (s : State) : (endTransfer t r s).mb = s.mb := by simp [endTransfer]
@[simp] theorem endTransfer_mbLen (t : TrResult) (r : Reply) (s : State) : (endTransfer t r s).mbLen = s.mbLen := by simp [endTransfer]
@[simp] theorem endTransfer_mbLock (t : TrResult) (r : Reply) (s : State) : (endTransfer t r s).mbLock = s.mbLock := by simp [endTransfer]
@[simp] theorem endTransfer_curKind (t : TrResult) (r : Reply) (s : State) : (endTransfer t r s).curKind = s.curKind := by simp [endTransfer]
@[simp] theorem endTransfer_curSlot (t : TrResult) (r : Reply) (s : State) : (endTransfer t r s).curSlot = s.curSlot := by simp [endTransfer]
@[simp] theorem endTransfer_curDec (t : TrResult) (r : Reply) (s : State) : (endTransfer t r s).curDec = s.curDec := by simp [endTransfer]
@[simp] theorem endTransfer_curStatus (t : TrResult) (r : Reply) (s : State) : (endTransfer t r s).curStatus = s.curStatus := by simp [endTransfer]
@[simp] theorem endTransfer_wT0 (t : TrResult) (r : Reply) (s : State) : (endTransfer t r s).wT0 = s.wT0 := by simp [endTransfer]
@[simp] theorem endTransfer_wLimit (t : TrResult) (r : Reply) (s : State) : (endTransfer t r s).wLimit = s.wLimit := by simp [endTransfer]
@[simp] theorem endTransfer_trState (t : TrResult) (r : Reply) (s : State) : (endTransfer t r s).trState = .idle := by simp [endTransfer]
@[simp] theorem endTransfer_trT0 (t : TrResult) (r : Reply) (s : State) : (endTransfer t r s).trT0 = s.trT0 := by simp [endTransfer]
@[simp] theorem endTransfer_trLimit (t : TrResult) (r : Reply) (s : State) : (endTransfer t r s).trLimit = s.trLimit := by simp [endTransfer]
@[simp] theorem endTransfer_trResult (t : TrResult) (r : Reply) (s : State) : (endTransfer t r s).trResult = t := by simp [endTransfer]
@[simp] theorem endTransfer_txBuf (t : TrResult) (r : Reply) (s : State) : (endTransfer t r s).txBuf = s.txBuf := by simp [endTransfer]
@[simp] theorem endTransfer_txLen (t : TrResult) (r : Reply) (s : State) : (endTransfer t r s).txLen = s.txLen := by simp [endTransfer]
@[simp] theorem endTransfer_rxBuf (t : TrResult) (r : Reply) (s : State) : (endTransfer t r s).rxBuf = s.rxBuf := by simp [endTransfer]
@[simp] theorem endTransfer_rxLen (t : TrResult) (r : Reply) (s : State) : (endTransfer t r s).rxLen = s.rxLen := by simp [endTransfer]
@[simp] theorem endTransfer_rxLock (t : TrResult) (r : Reply) (s : State) : (endTransfer t r s).rxLock = s.rxLock := by simp [endTransfer]
@[simp] theorem endTransfer_rxExpect (t : TrResult) (r : Reply) (s : State) : (endTransfer t r s).rxExpect = s.rxExpect := by simp [endTransfer]
@[simp] theorem endTransfer_isrState (t : TrResult) (r : Reply) (s : State) : (endTransfer t r s).isrState = s.isrState := by simp [endTransfer]
@[simp] theorem endTransfer_isrT0 (t : TrResult) (r : Reply) (s : State) : (endTransfer t r s).isrT0 = s.isrT0 := by simp [endTransfer]
@[simp] theorem endTransfer_irqPend (t : TrResult) (r : Reply) (s : State) : (endTransfer t r s).irqPend = s.irqPend := by simp [endTransfer]
@[simp] theorem endTransfer_prevPhase (t : TrResult) (r : Reply) (s : State) : (endTransfer t r s).prevPhase = s.prevPhase := by simp [endTransfer]
@[simp] theorem endTransfer_dev (t : TrResult) (r : Reply) (s : State) : (endTransfer t r s).dev = s.dev := by simp [endTransfer]
@[simp] theorem endTransfer_chain (t : TrResult) (r : Reply) (s : State) : (endTransfer t r s).chain = s.chain := by simp [endTransfer]
@[simp] theorem endTransfer_lastChk (t : TrResult) (r : Reply) (s : State) : (endTransfer t r s).lastChk = s.lastChk := by simp [endTransfer]
@[simp] theorem endTransfer_lastChkV (t : TrResult) (r : Reply) (s : State) : (endTransfer t r s).lastChkV = s.lastChkV := by simp [endTransfer]
@[simp] theorem endTransfer_lastErr (t : TrResult) (r : Reply) (s : State) : (endTransfer t r s).lastErr = s.lastErr := by simp [endTransfer]
@[simp] theorem endTransfer_errFlags (t : TrResult) (r : Reply) (s : State) : (endTransfer t r s).errFlags = s.errFlags := by simp [endTransfer]
@[simp] theorem endTransfer_timer (t : TrResult) (r : Reply) (s : State) : (endTransfer t r s).timer = s.timer := by simp [endTransfer]
@[simp] theorem endTransfer_dispValid (t : TrResult) (r : Reply) (s : State) : (endTransfer t r s).dispValid = s.dispValid := by simp [endTransfer]
@[simp] theorem endTransfer_dispSlot (t : TrResult) (r : Reply) (s : State) : (endTransfer t r s).dispSlot = s.dispSlot := by simp [endTransfer]
@[simp] theorem endTransfer_dispKind (t : TrResult) (r : Reply) (s : State) : (endTransfer t r s).dispKind = s.dispKind := by simp [endTransfer]
@[simp] theorem endTransfer_dispCap (t : TrResult) (r : Reply) (s : State) : (endTransfer t r s).dispCap = s.dispCap := by simp [endTransfer]
@[simp] theorem endTransfer_dispCmd (t : TrResult) (r : Reply) (s : State) : (endTransfer t r s).dispCmd = s.dispCmd := by simp [endTransfer]
@[simp] theorem endTransfer_phase (t : TrResult) (r : Reply) (s : State) : (endTransfer t r s).phase = s.phase := by simp [endTransfer]
@[simp] theorem endTransfer_reqPin (t : TrResult) (r : Reply) (s : State) : (endTransfer t r s).reqPin = s.reqPin := by simp [endTransfer]
@[simp] theorem endTransfer_txBits (t : TrResult) (r : Reply) (s : State) : (endTransfer t r s).txBits = s.txBits := by simp [endTransfer]
@[simp] theorem endTransfer_hostLine (t : TrResult) (r : Reply) (s : State) : (endTransfer t r s).hostLine = s.hostLine := by simp [endTransfer]
@[simp] theorem endTransfer_samples (t : TrResult) (r : Reply) (s : State) : (endTransfer t r s).samples = s.samples := by simp [endTransfer]
@[simp] theorem endTransfer_reqApp (t : TrResult) (r : Reply) (s : State) : (endTransfer t r s).reqApp = s.reqApp := by simp [endTransfer]
@[simp] theorem endTransfer_reqDev (t : TrResult) (r : Reply) (s : State) : (endTransfer t r s).reqDev = s.reqDev := by simp [endTransfer]
@[simp] theorem endTransfer_busy (t : TrResult) (r : Reply) (s : State) : (endTransfer t r s).busy = false := by simp [endTransfer]
@[simp] theorem endTransfer_replyApp (t : TrResult) (r : Reply) (s : State) : (endTransfer t r s).replyApp = s.replyApp := by simp [endTransfer]
@[simp] theorem endTransfer_csrOut (t : TrResult) (r : Reply) (s : State) : (endTransfer t r s).csrOut = s.csrOut := by simp [endTransfer]
@[simp] theorem endTransfer_refusedOp (t : TrResult) (r : Reply) (s : State) : (endTransfer t r s).refusedOp = s.refusedOp := by simp [endTransfer]
@[simp] theorem endTransfer_script (t : TrResult) (r : Reply) (s : State) : (endTransfer t r s).script = s.script := by simp [endTransfer]
@[simp] theorem endTransfer_turn (t : TrResult) (r : Reply) (s : State) : (endTransfer t r s).turn = s.turn := by simp [endTransfer]
@[simp] theorem endTransfer_draws (t : TrResult) (r : Reply) (s : State) : (endTransfer t r s).draws = s.draws := by simp [endTransfer]
@[simp] theorem endTransfer_hostTimeouts (t : TrResult) (r : Reply) (s : State) : (endTransfer t r s).hostTimeouts = s.hostTimeouts := by simp [endTransfer]
@[simp] theorem endTransfer_txChecked (t : TrResult) (r : Reply) (s : State) : (endTransfer t r s).txChecked = s.txChecked := by simp [endTransfer]
@[simp] theorem endTransfer_expectFailed (t : TrResult) (r : Reply) (s : State) : (endTransfer t r s).expectFailed = s.expectFailed := by simp [endTransfer]

/-! ### timeoutTransfer -/

@[simp] theorem timeoutTransfer_params (t : TrResult) (e : Err) (s : State) : (timeoutTransfer t e s).params = s.params := by simp [timeoutTransfer]
@[simp] theorem timeoutTransfer_eng (t : TrResult) (e : Err) (s : State) : (timeoutTransfer t e s).eng = s.eng := by simp [timeoutTransfer]
@[simp] theorem timeoutTransfer_ack (t : TrResult) (e : Err) (s : State) : (timeoutTransfer t e s).ack = s.ack := by simp [timeoutTransfer]
@[simp] theorem timeoutTransfer_staged (t : TrResult) (e : Err) (s : State) : (timeoutTransfer t e s).staged = s.staged := by simp [timeoutTransfer]
@[simp] theorem timeoutTransfer_mb (t : TrResult) (e : Err) (s : State) : (timeoutTransfer t e s).mb = s.mb := by simp [timeoutTransfer]
@[simp] theorem timeoutTransfer_mbLen (t : TrResult) (e : Err) (s : State) : (timeoutTransfer t e s).mbLen = s.mbLen := by simp [timeoutTransfer]
@[simp] theorem timeoutTransfer_mbLock (t : TrResult) (e : Err) (s : State) : (timeoutTransfer t e s).mbLock = s.mbLock := by simp [timeoutTransfer]
@[simp] theorem timeoutTransfer_curKind (t : TrResult) (e : Err) (s : State) : (timeoutTransfer t e s).curKind = s.curKind := by simp [timeoutTransfer]
@[simp] theorem timeoutTransfer_curSlot (t : TrResult) (e : Err) (s : State) : (timeoutTransfer t e s).curSlot = s.curSlot := by simp [timeoutTransfer]
@[simp] theorem timeoutTransfer_curDec (t : TrResult) (e : Err) (s : State) : (timeoutTransfer t e s).curDec = s.curDec := by simp [timeoutTransfer]
@[simp] theorem timeoutTransfer_curStatus (t : TrResult) (e : Err) (s : State) : (timeoutTransfer t e s).curStatus = s.curStatus := by simp [timeoutTransfer]
@[simp] theorem timeoutTransfer_wT0 (t : TrResult) (e : Err) (s : State) : (timeoutTransfer t e s).wT0 = s.wT0 := by simp [timeoutTransfer]
@[simp] theorem timeoutTransfer_wLimit (t : TrResult) (e : Err) (s : State) : (timeoutTransfer t e s).wLimit = s.wLimit := by simp [timeoutTransfer]
@[simp] theorem timeoutTransfer_trState (t : TrResult) (e : Err) (s : State) : (timeoutTransfer t e s).trState = .idle := by simp [timeoutTransfer]
@[simp] theorem timeoutTransfer_trT0 (t : TrResult) (e : Err) (s : State) : (timeoutTransfer t e s).trT0 = s.trT0 := by simp [timeoutTransfer]
@[simp] theorem timeoutTransfer_trLimit (t : TrResult) (e : Err) (s : State) : (timeoutTransfer t e s).trLimit = s.trLimit := by simp [timeoutTransfer]
@[simp] theorem timeoutTransfer_trResult (t : TrResult) (e : Err) (s : State) : (timeoutTransfer t e s).trResult = t := by simp [timeoutTransfer]
@[simp] theorem timeoutTransfer_txBuf (t : TrResult) (e : Err) (s : State) : (timeoutTransfer t e s).txBuf = s.txBuf := by simp [timeoutTransfer]
@[simp] theorem timeoutTransfer_txLen (t : TrResult) (e : Err) (s : State) : (timeoutTransfer t e s).txLen = s.txLen := by simp [timeoutTransfer]
@[simp] theorem timeoutTransfer_rxBuf (t : TrResult) (e : Err) (s : State) : (timeoutTransfer t e s).rxBuf = s.rxBuf := by simp [timeoutTransfer]
@[simp] theorem timeoutTransfer_rxLen (t : TrResult) (e : Err) (s : State) : (timeoutTransfer t e s).rxLen = s.rxLen := by simp [timeoutTransfer]
@[simp] theorem timeoutTransfer_rxLock (t : TrResult) (e : Err) (s : State) : (timeoutTransfer t e s).rxLock = s.rxLock := by simp [timeoutTransfer]
@[simp] theorem timeoutTransfer_rxExpect (t : TrResult) (e : Err) (s : State) : (timeoutTransfer t e s).rxExpect = s.rxExpect := by simp [timeoutTransfer]
@[simp] theorem timeoutTransfer_isrState (t : TrResult) (e : Err) (s : State) : (timeoutTransfer t e s).isrState = s.isrState := by simp [timeoutTransfer]
@[simp] theorem timeoutTransfer_isrT0 (t : TrResult) (e : Err) (s : State) : (timeoutTransfer t e s).isrT0 = s.isrT0 := by simp [timeoutTransfer]
@[simp] theorem timeoutTransfer_irqPend (t : TrResult) (e : Err) (s : State) : (timeoutTransfer t e s).irqPend = s.irqPend := by simp [timeoutTransfer]
@[simp] theorem timeoutTransfer_prevPhase (t : TrResult) (e : Err) (s : State) : (timeoutTransfer t e s).prevPhase = s.prevPhase := by simp [timeoutTransfer]
@[simp] theorem timeoutTransfer_dev (t : TrResult) (e : Err) (s : State) : (timeoutTransfer t e s).dev = s.dev := by simp [timeoutTransfer]
@[simp] theorem timeoutTransfer_chain (t : TrResult) (e : Err) (s : State) : (timeoutTransfer t e s).chain = s.chain := by simp [timeoutTransfer]
@[simp] theorem timeoutTransfer_lastChk (t : TrResult) (e : Err) (s : State) : (timeoutTransfer t e s).lastChk = s.lastChk := by simp [timeoutTransfer]
@[simp] theorem timeoutTransfer_lastChkV (t : TrResult) (e : Err) (s : State) : (timeoutTransfer t e s).lastChkV = s.lastChkV := by simp [timeoutTransfer]
@[simp] theorem timeoutTransfer_lastErr (t : TrResult) (e : Err) (s : State) : (timeoutTransfer t e s).lastErr = e.code := by simp [timeoutTransfer]
@[simp] theorem timeoutTransfer_errFlags (t : TrResult) (e : Err) (s : State) : (timeoutTransfer t e s).errFlags = s.errFlags ||| (1#16 <<< e.num) := by simp [timeoutTransfer]
@[simp] theorem timeoutTransfer_timer (t : TrResult) (e : Err) (s : State) : (timeoutTransfer t e s).timer = s.timer := by simp [timeoutTransfer]
@[simp] theorem timeoutTransfer_dispValid (t : TrResult) (e : Err) (s : State) : (timeoutTransfer t e s).dispValid = s.dispValid := by simp [timeoutTransfer]
@[simp] theorem timeoutTransfer_dispSlot (t : TrResult) (e : Err) (s : State) : (timeoutTransfer t e s).dispSlot = s.dispSlot := by simp [timeoutTransfer]
@[simp] theorem timeoutTransfer_dispKind (t : TrResult) (e : Err) (s : State) : (timeoutTransfer t e s).dispKind = s.dispKind := by simp [timeoutTransfer]
@[simp] theorem timeoutTransfer_dispCap (t : TrResult) (e : Err) (s : State) : (timeoutTransfer t e s).dispCap = s.dispCap := by simp [timeoutTransfer]
@[simp] theorem timeoutTransfer_dispCmd (t : TrResult) (e : Err) (s : State) : (timeoutTransfer t e s).dispCmd = s.dispCmd := by simp [timeoutTransfer]
@[simp] theorem timeoutTransfer_phase (t : TrResult) (e : Err) (s : State) : (timeoutTransfer t e s).phase = s.phase := by simp [timeoutTransfer]
@[simp] theorem timeoutTransfer_reqPin (t : TrResult) (e : Err) (s : State) : (timeoutTransfer t e s).reqPin = s.reqPin := by simp [timeoutTransfer]
@[simp] theorem timeoutTransfer_txBits (t : TrResult) (e : Err) (s : State) : (timeoutTransfer t e s).txBits = s.txBits := by simp [timeoutTransfer]
@[simp] theorem timeoutTransfer_hostLine (t : TrResult) (e : Err) (s : State) : (timeoutTransfer t e s).hostLine = s.hostLine := by simp [timeoutTransfer]
@[simp] theorem timeoutTransfer_samples (t : TrResult) (e : Err) (s : State) : (timeoutTransfer t e s).samples = s.samples := by simp [timeoutTransfer]
@[simp] theorem timeoutTransfer_reqApp (t : TrResult) (e : Err) (s : State) : (timeoutTransfer t e s).reqApp = s.reqApp := by simp [timeoutTransfer]
@[simp] theorem timeoutTransfer_reqDev (t : TrResult) (e : Err) (s : State) : (timeoutTransfer t e s).reqDev = s.reqDev := by simp [timeoutTransfer]
@[simp] theorem timeoutTransfer_busy (t : TrResult) (e : Err) (s : State) : (timeoutTransfer t e s).busy = false := by simp [timeoutTransfer]
@[simp] theorem timeoutTransfer_replyApp (t : TrResult) (e : Err) (s : State) : (timeoutTransfer t e s).replyApp = s.replyApp := by simp [timeoutTransfer]
@[simp] theorem timeoutTransfer_csrOut (t : TrResult) (e : Err) (s : State) : (timeoutTransfer t e s).csrOut = s.csrOut := by simp [timeoutTransfer]
@[simp] theorem timeoutTransfer_refusedOp (t : TrResult) (e : Err) (s : State) : (timeoutTransfer t e s).refusedOp = s.refusedOp := by simp [timeoutTransfer]
@[simp] theorem timeoutTransfer_script (t : TrResult) (e : Err) (s : State) : (timeoutTransfer t e s).script = s.script := by simp [timeoutTransfer]
@[simp] theorem timeoutTransfer_turn (t : TrResult) (e : Err) (s : State) : (timeoutTransfer t e s).turn = s.turn := by simp [timeoutTransfer]
@[simp] theorem timeoutTransfer_draws (t : TrResult) (e : Err) (s : State) : (timeoutTransfer t e s).draws = s.draws := by simp [timeoutTransfer]
@[simp] theorem timeoutTransfer_hostTimeouts (t : TrResult) (e : Err) (s : State) : (timeoutTransfer t e s).hostTimeouts = s.hostTimeouts := by simp [timeoutTransfer]
@[simp] theorem timeoutTransfer_txChecked (t : TrResult) (e : Err) (s : State) : (timeoutTransfer t e s).txChecked = s.txChecked := by simp [timeoutTransfer]
@[simp] theorem timeoutTransfer_expectFailed (t : TrResult) (e : Err) (s : State) : (timeoutTransfer t e s).expectFailed = s.expectFailed := by simp [timeoutTransfer]

/-! ### takeInterrupt -/

@[simp] theorem takeInterrupt_params (s : State) : (takeInterrupt s).params = s.params := by unfold takeInterrupt; split <;> rfl
@[simp] theorem takeInterrupt_eng (s : State) : (takeInterrupt s).eng = s.eng := by unfold takeInterrupt; split <;> rfl
@[simp] theorem takeInterrupt_ack (s : State) : (takeInterrupt s).ack = s.ack := by unfold takeInterrupt; split <;> rfl
@[simp] theorem takeInterrupt_staged (s : State) : (takeInterrupt s).staged = s.staged := by unfold takeInterrupt; split <;> rfl
@[simp] theorem takeInterrupt_mb (s : State) : (takeInterrupt s).mb = s.mb := by unfold takeInterrupt; split <;> rfl
@[simp] theorem takeInterrupt_mbLen (s : State) : (takeInterrupt s).mbLen = s.mbLen := by unfold takeInterrupt; split <;> rfl
@[simp] theorem takeInterrupt_mbLock (s : State) : (takeInterrupt s).mbLock = s.mbLock := by unfold takeInterrupt; split <;> rfl
@[simp] theorem takeInterrupt_curKind (s : State) : (takeInterrupt s).curKind = s.curKind := by unfold takeInterrupt; split <;> rfl
@[simp] theorem takeInterrupt_curSlot (s : State) : (takeInterrupt s).curSlot = s.curSlot := by unfold takeInterrupt; split <;> rfl
@[simp] theorem takeInterrupt_curDec (s : State) : (takeInterrupt s).curDec = s.curDec := by unfold takeInterrupt; split <;> rfl
@[simp] theorem takeInterrupt_curStatus (s : State) : (takeInterrupt s).curStatus = s.curStatus := by unfold takeInterrupt; split <;> rfl
@[simp] theorem takeInterrupt_wT0 (s : State) : (takeInterrupt s).wT0 = s.wT0 := by unfold takeInterrupt; split <;> rfl
@[simp] theorem takeInterrupt_wLimit (s : State) : (takeInterrupt s).wLimit = s.wLimit := by unfold takeInterrupt; split <;> rfl
@[simp] theorem takeInterrupt_trState (s : State) : (takeInterrupt s).trState = s.trState := by unfold takeInterrupt; split <;> rfl
@[simp] theorem takeInterrupt_trT0 (s : State) : (takeInterrupt s).trT0 = s.trT0 := by unfold takeInterrupt; split <;> rfl
@[simp] theorem takeInterrupt_trLimit (s : State) : (takeInterrupt s).trLimit = s.trLimit := by unfold takeInterrupt; split <;> rfl
@[simp] theorem takeInterrupt_trResult (s : State) : (takeInterrupt s).trResult = s.trResult := by unfold takeInterrupt; split <;> rfl
@[simp] theorem takeInterrupt_txBuf (s : State) : (takeInterrupt s).txBuf = s.txBuf := by unfold takeInterrupt; split <;> rfl
@[simp] theorem takeInterrupt_txLen (s : State) : (takeInterrupt s).txLen = s.txLen := by unfold takeInterrupt; split <;> rfl
@[simp] theorem takeInterrupt_rxBuf (s : State) : (takeInterrupt s).rxBuf = s.rxBuf := by unfold takeInterrupt; split <;> rfl
@[simp] theorem takeInterrupt_rxLen (s : State) : (takeInterrupt s).rxLen = s.rxLen := by unfold takeInterrupt; split <;> rfl
@[simp] theorem takeInterrupt_rxLock (s : State) : (takeInterrupt s).rxLock = s.rxLock := by unfold takeInterrupt; split <;> rfl
@[simp] theorem takeInterrupt_rxExpect (s : State) : (takeInterrupt s).rxExpect = s.rxExpect := by unfold takeInterrupt; split <;> rfl
@[simp] theorem takeInterrupt_irqPend (s : State) : (takeInterrupt s).irqPend = false := by unfold takeInterrupt; split <;> rfl
@[simp] theorem takeInterrupt_prevPhase (s : State) : (takeInterrupt s).prevPhase = s.prevPhase := by unfold takeInterrupt; split <;> rfl
@[simp] theorem takeInterrupt_dev (s : State) : (takeInterrupt s).dev = s.dev := by unfold takeInterrupt; split <;> rfl
@[simp] theorem takeInterrupt_chain (s : State) : (takeInterrupt s).chain = s.chain := by unfold takeInterrupt; split <;> rfl
@[simp] theorem takeInterrupt_lastChk (s : State) : (takeInterrupt s).lastChk = s.lastChk := by unfold takeInterrupt; split <;> rfl
@[simp] theorem takeInterrupt_lastChkV (s : State) : (takeInterrupt s).lastChkV = s.lastChkV := by unfold takeInterrupt; split <;> rfl
@[simp] theorem takeInterrupt_lastErr (s : State) : (takeInterrupt s).lastErr = s.lastErr := by unfold takeInterrupt; split <;> rfl
@[simp] theorem takeInterrupt_errFlags (s : State) : (takeInterrupt s).errFlags = s.errFlags := by unfold takeInterrupt; split <;> rfl
@[simp] theorem takeInterrupt_timer (s : State) : (takeInterrupt s).timer = s.timer := by unfold takeInterrupt; split <;> rfl
@[simp] theorem takeInterrupt_dispValid (s : State) : (takeInterrupt s).dispValid = s.dispValid := by unfold takeInterrupt; split <;> rfl
@[simp] theorem takeInterrupt_dispSlot (s : State) : (takeInterrupt s).dispSlot = s.dispSlot := by unfold takeInterrupt; split <;> rfl
@[simp] theorem takeInterrupt_dispKind (s : State) : (takeInterrupt s).dispKind = s.dispKind := by unfold takeInterrupt; split <;> rfl
@[simp] theorem takeInterrupt_dispCap (s : State) : (takeInterrupt s).dispCap = s.dispCap := by unfold takeInterrupt; split <;> rfl
@[simp] theorem takeInterrupt_dispCmd (s : State) : (takeInterrupt s).dispCmd = s.dispCmd := by unfold takeInterrupt; split <;> rfl
@[simp] theorem takeInterrupt_phase (s : State) : (takeInterrupt s).phase = s.phase := by unfold takeInterrupt; split <;> rfl
@[simp] theorem takeInterrupt_reqPin (s : State) : (takeInterrupt s).reqPin = s.reqPin := by unfold takeInterrupt; split <;> rfl
@[simp] theorem takeInterrupt_txBits (s : State) : (takeInterrupt s).txBits = s.txBits := by unfold takeInterrupt; split <;> rfl
@[simp] theorem takeInterrupt_hostLine (s : State) : (takeInterrupt s).hostLine = s.hostLine := by unfold takeInterrupt; split <;> rfl
@[simp] theorem takeInterrupt_samples (s : State) : (takeInterrupt s).samples = s.samples := by unfold takeInterrupt; split <;> rfl
@[simp] theorem takeInterrupt_reqApp (s : State) : (takeInterrupt s).reqApp = s.reqApp := by unfold takeInterrupt; split <;> rfl
@[simp] theorem takeInterrupt_reqDev (s : State) : (takeInterrupt s).reqDev = s.reqDev := by unfold takeInterrupt; split <;> rfl
@[simp] theorem takeInterrupt_busy (s : State) : (takeInterrupt s).busy = s.busy := by unfold takeInterrupt; split <;> rfl
@[simp] theorem takeInterrupt_replyApp (s : State) : (takeInterrupt s).replyApp = s.replyApp := by unfold takeInterrupt; split <;> rfl
@[simp] theorem takeInterrupt_replyDev (s : State) : (takeInterrupt s).replyDev = s.replyDev := by unfold takeInterrupt; split <;> rfl
@[simp] theorem takeInterrupt_csrOut (s : State) : (takeInterrupt s).csrOut = s.csrOut := by unfold takeInterrupt; split <;> rfl
@[simp] theorem takeInterrupt_refusedOp (s : State) : (takeInterrupt s).refusedOp = s.refusedOp := by unfold takeInterrupt; split <;> rfl
@[simp] theorem takeInterrupt_script (s : State) : (takeInterrupt s).script = s.script := by unfold takeInterrupt; split <;> rfl
@[simp] theorem takeInterrupt_turn (s : State) : (takeInterrupt s).turn = s.turn := by unfold takeInterrupt; split <;> rfl
@[simp] theorem takeInterrupt_draws (s : State) : (takeInterrupt s).draws = s.draws := by unfold takeInterrupt; split <;> rfl
@[simp] theorem takeInterrupt_hostTimeouts (s : State) : (takeInterrupt s).hostTimeouts = s.hostTimeouts := by unfold takeInterrupt; split <;> rfl
@[simp] theorem takeInterrupt_txChecked (s : State) : (takeInterrupt s).txChecked = s.txChecked := by unfold takeInterrupt; split <;> rfl
@[simp] theorem takeInterrupt_expectFailed (s : State) : (takeInterrupt s).expectFailed = s.expectFailed := by unfold takeInterrupt; split <;> rfl

end Sys2Proof.Machine
end

