-- ==== Sys2Proof/Laws/Ops.lean ====
section
/-! SUPPORT. What each shared operation of Machine/Ops.lean and Machine/Operands.lean can do, said once. -/

namespace Sys2Proof.Machine

/-! ### Byte buffers -/

@[simp] theorem readByte_nil (i : Nat) : readByte [] i = none := rfl

theorem readByte_writeByte_same (i : Nat) (v : Byte) (m : Memory) : readByte (writeByte i v m) i = some v := by
  induction m with
  | nil => simp [writeByte, readByte]
  | cons c m ih =>
    obtain ⟨j, w⟩ := c
    simp only [writeByte]
    split
    · simp [readByte]
    · split
      · simp [readByte]
      · simp [readByte, *]

theorem readByte_writeByte_other {i j : Nat} (h : j ≠ i) (v : Byte) (m : Memory) :
    readByte (writeByte i v m) j = readByte m j := by
  induction m with
  | nil => simp [writeByte, readByte, h]
  | cons c m ih =>
    obtain ⟨k, w⟩ := c
    simp only [writeByte]
    split
    · simp [readByte, h]
    · split
      · rename_i h1; subst h1; simp [readByte, h]
      · simp [readByte, ih]

/-- What a byte reads as after one byte was written. -/
theorem readByte_writeByte (i j : Nat) (v : Byte) (m : Memory) :
    readByte (writeByte i v m) j = if j = i then some v else readByte m j := by
  split
  · rename_i h; subst h; exact readByte_writeByte_same j v m
  · rename_i h; exact readByte_writeByte_other h v m

/-- What a byte reads as after a list of bytes was written from index `i`. -/
theorem readByte_writeBytes (vs : List Byte) :
    ∀ (i j : Nat) (m : Memory), readByte (writeBytes i vs m) j =
      if i ≤ j ∧ j < i + vs.length then vs[j - i]? else readByte m j := by
  induction vs with
  | nil => intro i j m; rw [if_neg (by simp)]; rfl
  | cons v vs ih =>
    intro i j m
    simp only [writeBytes, ih, readByte_writeByte, List.length_cons]
    by_cases h : j = i
    · subst h
      rw [if_neg (by omega), if_pos rfl, if_pos (by omega)]
      simp
    · by_cases h2 : i + 1 ≤ j ∧ j < i + 1 + vs.length
      · rw [if_pos h2, if_pos (by omega)]
        obtain ⟨k, rfl⟩ : ∃ k, j = i + 1 + k := ⟨j - (i + 1), by omega⟩
        rw [show i + 1 + k - (i + 1) = k by omega, show i + 1 + k - i = k + 1 by omega]
        simp
      · rw [if_neg h2, if_neg h, if_neg (by omega)]

/-- An index written before is either the one written now or was listed before. -/
theorem mem_writeByte {c : Host.Cell} {i : Nat} {v : Byte} {m : Memory} (h : c ∈ writeByte i v m) :
    c = (i, v) ∨ c ∈ m := by
  induction m with
  | nil => simpa [writeByte] using h
  | cons d m ih =>
    obtain ⟨j, w⟩ := d
    simp only [writeByte] at h
    split at h
    · simpa using h
    · split at h
      · simp only [List.mem_cons] at h ⊢; tauto
      · simp only [List.mem_cons] at h ⊢
        rcases h with h | h
        · exact .inr (.inl h)
        · rcases ih h with h | h <;> tauto

/-- One write keeps the canonical form. -/
theorem writeByte_wf (i : Nat) (v : Byte) {m : Memory} (h : m.wf) : (writeByte i v m).wf := by
  induction m with
  | nil => simp [writeByte, Memory.wf]
  | cons d m ih =>
    obtain ⟨j, w⟩ := d
    have hm : Memory.wf m := (List.pairwise_cons.1 h).2
    have hj := (List.pairwise_cons.1 h).1
    simp only [writeByte]
    split
    · rename_i hlt
      refine List.pairwise_cons.2 ⟨?_, h⟩
      intro c hc
      rcases List.mem_cons.1 hc with rfl | hc
      · exact hlt
      · exact Nat.lt_trans hlt (hj c hc)
    · split
      · rename_i heq
        subst heq
        exact List.pairwise_cons.2 ⟨hj, hm⟩
      · rename_i h1 h2
        refine List.pairwise_cons.2 ⟨?_, ih hm⟩
        intro c hc
        rcases mem_writeByte hc with rfl | hc
        · show j < i; omega
        · exact hj c hc

/-- Every memory operation keeps the canonical form. -/
theorem writeBytes_wf (vs : List Byte) : ∀ (i : Nat) {m : Memory}, m.wf → (writeBytes i vs m).wf := by
  induction vs with
  | nil => intro i m h; exact h
  | cons v vs ih => intro i m h; exact ih (i + 1) (writeByte_wf i v h)

/-- The indices listed after a write are the written ones and the old ones. -/
theorem mem_writeBytes {c : Host.Cell} (vs : List Byte) :
    ∀ (i : Nat) {m : Memory}, c ∈ writeBytes i vs m → c ∈ m ∨ (i ≤ c.1 ∧ c.1 < i + vs.length) := by
  induction vs with
  | nil => intro i m h; exact .inl h
  | cons v vs ih =>
    intro i m h
    rcases ih (i + 1) h with h | h
    · rcases mem_writeByte h with rfl | h
      · right; simp
      · exact .inl h
    · right; simp only [List.length_cons]; omega

/-- The memory after power-on reset has the canonical form. -/
theorem powerOn_wf (P : Params) (ph : Phase) (r : Bool) :
    (State.powerOn P ph r).txBuf.wf ∧ (State.powerOn P ph r).rxBuf.wf ∧ (State.powerOn P ph r).mb.wf :=
  ⟨List.Pairwise.nil, List.Pairwise.nil, List.Pairwise.nil⟩

/-- The memory of the reset state has the canonical form. -/
theorem reset_wf : State.reset.txBuf.wf ∧ State.reset.rxBuf.wf ∧ State.reset.mb.wf := powerOn_wf _ _ _

theorem readBytes_length {m : Memory} {n : Nat} : ∀ {i : Nat} {vs : List Byte},
    readBytes m i n = some vs → vs.length = n := by
  induction n with
  | zero => intro i vs h; simp [readBytes] at h; simp [← h]
  | succ n ih =>
    intro i vs h
    simp only [readBytes] at h
    split at h
    · rename_i v ws _ h2
      cases h
      simp [ih h2]
    · cases h

/-- A list read succeeds exactly when every byte of it holds a value. -/
theorem readBytes_isSome (m : Memory) (n : Nat) : ∀ i : Nat,
    (readBytes m i n).isSome = true ↔ ∀ k, k < n → (readByte m (i + k)).isSome = true := by
  induction n with
  | zero => intro i; simp [readBytes]
  | succ n ih =>
    intro i
    constructor
    · intro h k hk
      simp only [readBytes] at h
      split at h
      · rename_i v vs h1 h2
        rcases Nat.eq_zero_or_pos k with rfl | hpos
        · simp [h1]
        · have := (ih (i + 1)).1 (by simp [h2]) (k - 1) (by omega)
          rwa [show i + 1 + (k - 1) = i + k by omega] at this
      · cases h
    · intro h
      have h0 := h 0 (by omega)
      obtain ⟨v, hv⟩ := Option.isSome_iff_exists.1 h0
      obtain ⟨vs, hvs⟩ := Option.isSome_iff_exists.1 ((ih (i + 1)).2 (fun k hk => by
        have := h (k + 1) (by omega)
        rwa [show i + (k + 1) = i + 1 + k by omega] at this))
      simp only [Nat.add_zero] at hv
      simp [readBytes, hv, hvs]

/-- The byte read at place `k` of a list read is the buffer's byte. -/
theorem readBytes_get {m : Memory} {n : Nat} : ∀ {i : Nat} {vs : List Byte},
    readBytes m i n = some vs → ∀ k, k < n → vs[k]? = readByte m (i + k) := by
  induction n with
  | zero => intro i vs _ k hk; omega
  | succ n ih =>
    intro i vs h k hk
    simp only [readBytes] at h
    split at h
    · rename_i v ws h1 h2
      cases h
      rcases Nat.eq_zero_or_pos k with rfl | hpos
      · simp [h1]
      · obtain ⟨k', rfl⟩ : ∃ k', k = k' + 1 := ⟨k - 1, by omega⟩
        have := ih h2 k' (by omega)
        rw [show i + (k' + 1) = i + 1 + k' by omega]
        simpa using this
    · cases h

/-- When MemRead answers bytes, they are in range, as many as asked for, and the buffer's own. -/
theorem memRead_ok {P : Params} {m : Memory} {i n : Nat} {vs : List Byte} (h : memRead P m i n = .ok vs) :
    i + n ≤ P.bufLen ∧ vs.length = n ∧ ∀ k, k < n → vs[k]? = readByte m (i + k) := by
  unfold memRead at h
  split at h
  · cases h
  · split at h
    · rename_i hr
      cases h
      exact ⟨by omega, readBytes_length hr, readBytes_get hr⟩
    · cases h

/-- MemRead of the valid part of a buffer answers. -/
theorem memRead_valid {P : Params} {m : Memory} {n : Nat} (hn : n ≤ P.bufLen)
    (h : ∀ k, k < n → (readByte m k).isSome = true) : ∃ vs, memRead P m 0 n = .ok vs := by
  obtain ⟨vs, hvs⟩ := Option.isSome_iff_exists.1 ((readBytes_isSome m n 0).2 (by simpa using h))
  exact ⟨vs, by simp [memRead, hvs, Nat.not_lt.2 hn]⟩

/-- When MemWrite answers a buffer, the bytes fit and the buffer is the old one with them written. -/
theorem memWrite_ok {P : Params} {m m' : Memory} {i : Nat} {vs : List Byte} (h : memWrite P m i vs = .ok m') :
    i + vs.length ≤ P.bufLen ∧ m' = writeBytes i vs m := by
  unfold memWrite at h
  split at h
  · cases h
  · cases h; exact ⟨by omega, rfl⟩

/-- `orFault` answers a next state only through its continuation. -/
theorem orFault_next {α : Type} {r : Except Fault α} {k : α → Out} {t : State} (h : orFault r k = .next t) :
    ∃ a, r = .ok a ∧ k a = .next t := by
  cases r with
  | error f => cases h
  | ok a => exact ⟨a, rfl, h⟩

/-! ### Replies -/

@[simp] theorem deliver_app_replyApp (r : Reply) (s : State) : (deliver .app r s).replyApp = some r := rfl

@[simp] theorem deliver_app_replyDev (r : Reply) (s : State) : (deliver .app r s).replyDev = s.replyDev := rfl

@[simp] theorem deliver_devlayer_replyApp (r : Reply) (s : State) :
    (deliver .devlayer r s).replyApp = s.replyApp := rfl

@[simp] theorem deliver_devlayer_replyDev (r : Reply) (s : State) : (deliver .devlayer r s).replyDev = some r := rfl

/-- A transport operation of DEVLAYER's is answered; any other leaves DEVLAYER's reply. -/
theorem answerBusy_replyDev (r : Reply) (s : State) :
    (answerBusy r s).replyDev = if s.busy then some r else s.replyDev := by
  unfold answerBusy; split <;> rfl

/-! ### The bounded wait -/

theorem waitReq_success {level : Bool} {t0 limit : Word32} {s : State} :
    waitReq level t0 limit s = .success ↔ reqLevel s = level := by
  unfold waitReq; split
  · simp_all
  · split <;> simp_all

theorem waitReq_timeout {level : Bool} {t0 limit : Word32} {s : State} :
    waitReq level t0 limit s = .timeout ↔ reqLevel s ≠ level ∧ limit ≤ s.timer - t0 := by
  unfold waitReq; split
  · simp_all
  · split <;> simp_all

/-! ### Capture and decode -/

/-- A capture changes only what HOST has queued and the draw counter. -/
theorem capture_state (n : Nat) (s : State) :
    (capture n s).2 = { s with hostLine := (capture n s).2.hostLine, samples := (capture n s).2.samples,
                               draws := (capture n s).2.draws } := by
  unfold capture; split <;> rfl

/-- A capture answers `n` samples. -/
theorem capture_length (n : Nat) (s : State) : (capture n s).1.length = n := by
  unfold capture
  split
  · simp only [lineSamples, List.length_take, List.length_append, List.length_replicate]; omega
  · simp only [List.length_append, List.length_take, List.length_map, List.length_range]; omega

/-- A decode changes only LAST_CHK and LAST_CHK_V. -/
theorem runDecode_state (b : List Byte) (s : State) :
    (runDecode b s).2 = { s with lastChk := (runDecode b s).2.lastChk, lastChkV := (runDecode b s).2.lastChkV } := by
  unfold runDecode; simp only; split <;> rfl

theorem runDecode_result (b : List Byte) (s : State) :
    (runDecode b s).1 = decodeBody s.params s.lastChk s.lastChkV b := by
  unfold runDecode; simp only; split <;> rfl

/-- The deserialized body fits a buffer. -/
theorem deserialize_length (P : Params) (xs : List Bool) : (deserialize P xs).2.length ≤ P.bufLen := by
  unfold deserialize; split
  · simp
  · simp only [List.length_take]; omega

/-! ### SEND -/

/-- SEND answers exactly when the packet fits TXBUF; then it writes TXBUF, TX_LEN, ACK and the wait. -/
theorem startSend_ok {raw : List Byte} {s t : State} (h : startSend raw s = .ok t) :
    raw.length ≤ s.params.bufLen ∧
      t = { s with txBuf := writeBytes 0 raw s.txBuf, txLen := raw.length, ack := false, trT0 := s.timer,
                   trLimit := s.params.tSendReqRise, trState := .sWaitRise } := by
  unfold startSend at h
  split at h
  · cases h
  · rename_i m hm
    obtain ⟨hl, rfl⟩ := memWrite_ok hm
    cases h
    exact ⟨by omega, rfl⟩

/-! ### The interrupt -/

/-- Interrupt entry either begins the prefetch or only takes the request. -/
theorem takeInterrupt_cases (s : State) :
    takeInterrupt s = { s with irqPend := false, isrT0 := s.timer, isrState := .waitRise } ∨
      takeInterrupt s = { s with irqPend := false } := by
  unfold takeInterrupt; split
  · exact .inl rfl
  · exact .inr rfl

/-! ### Operands -/

/-- A slot found in the chain is in the chain, and its device meets the test. -/
theorem firstInChain_some {s : State} {test : Device → Bool} {i : Nat} (h : firstInChain s test = some i) :
    i ∈ s.chain ∧ test (devAt s i) = true :=
  ⟨List.mem_of_find?_eq_some h, by simpa using List.find?_some h⟩

/-- The request POLL takes was offered by its issuer, and only that slot and the draw counter change. -/
theorem takeRequest_some {s t : State} {who : Issuer} {r : Request} (h : takeRequest s = some (who, r, t)) :
    (who = .app ∧ s.reqApp = some r ∧ t = { s with reqApp := none, draws := t.draws }) ∨
      (who = .devlayer ∧ s.reqDev = some r ∧ t = { s with reqDev := none, draws := t.draws }) := by
  unfold takeRequest at h
  split at h
  · cases h
  · rename_i h1 h2; cases h; exact .inl ⟨rfl, h1, rfl⟩
  · rename_i h1 h2; cases h; exact .inr ⟨rfl, h2, rfl⟩
  · rename_i h1 h2
    split at h
    · cases h; exact .inl ⟨rfl, h1, rfl⟩
    · cases h; exact .inr ⟨rfl, h2, rfl⟩

end Sys2Proof.Machine
end

