-- ==== Sys2Proof/Laws/PerInstr.lean ====
section
/-! SUPPORT. Statements made of every operation as syntax, one lemma per constructor. -/

namespace Sys2Proof.Laws.CodeShape

/-- The match and mask columns of spec/opcode_table.json for the first byte of the operation's code, where the table
gives numbers; none where it gives words. -/
def tableCode : Instr → Option (Byte × Byte)
  | .addDevice _ _ _ => some (0x01#8, 0xFF#8)
  | .removeDevice _ _ => some (0x02#8, 0xFF#8)
  | .setActive _ _ _ => some (0x03#8, 0xFF#8)
  | .setActiveSlot _ _ _ => some (0x04#8, 0xFF#8)
  | .deviceByAddr _ _ => some (0x05#8, 0xFF#8)
  | .encodePacket _ _ _ _ _ _ => some (0x10#8, 0xFF#8)
  | .decodePacket _ _ _ => some (0x11#8, 0xFF#8)
  | .sendReply _ _ _ _ _ => some (0x20#8, 0xFF#8)
  | .recvData _ _ => some (0x21#8, 0xFF#8)
  | .devDone _ => some (0x2F#8, 0xFF#8)
  | .portReserved _ _ => none
  | .pollDispatch => none
  | .eIdle => some (0x00#8, 0x07#8)
  | .eReset => some (0x01#8, 0x07#8)
  | .busReset => none
  | .eEnable => some (0x02#8, 0x07#8)
  | .claim => none
  | .eClaimWait => some (0x03#8, 0x07#8)
  | .eDecode => some (0x04#8, 0x07#8)
  | .initAssign => none
  | .dispatchCmd => none
  | .dispatchIoerror => none
  | .eInitReply => some (0x05#8, 0x07#8)
  | .eDevice => some (0x06#8, 0x07#8)
  | .eFinish => some (0x07#8, 0x07#8)
  | .sWaitRise => some (0x01#8, 0x07#8)
  | .sWaitFall => some (0x02#8, 0x07#8)
  | .rWaitRise => some (0x03#8, 0x07#8)
  | .rWaitFall => some (0x04#8, 0x07#8)
  | .isrStart => none
  | .iWaitRise => some (0x01#8, 0x01#8)
  | .isrStage => none
  | .edgeDetect => none
  | .timerTick => none
  | .phaseReset _ => some (0x05#8, 0x0F#8)
  | .phaseEnable _ => some (0x0A#8, 0x0A#8)
  | .phaseIdle _ => none
  | .typeCommand => some (0x80#8, 0xFF#8)
  | .typeStatus => some (0x81#8, 0xFF#8)
  | .typeData => some (0x82#8, 0xFF#8)
  | .typeReserved _ => some (0x80#8, 0x80#8)
  | .initCmd => some (0x85#8, 0xFF#8)
  | .cmdStatus80 _ => some (0x80#8, 0xFF#8)
  | .cmdRead81 _ => some (0x81#8, 0xFF#8)
  | .cmdWrite82 _ => some (0x82#8, 0xFF#8)
  | .cmdControl84 _ => some (0x84#8, 0xFF#8)
  | .cmdOpen86 _ => some (0x86#8, 0xFF#8)
  | .cmdClose87 _ => some (0x87#8, 0xFF#8)
  | .cmdRead88 _ => some (0x88#8, 0xFF#8)
  | .cmdWrite89 _ => some (0x89#8, 0xFF#8)
  | .cmdNone _ => none
  | .sync => some (0xFF#8, 0xFF#8)
  | .start => some (0xC3#8, 0xFF#8)
  | .endMark => some (0xC8#8, 0xFF#8)
  | .header _ _ _ _ _ _ _ => some (0x80#8, 0x80#8)
  | .counts _ _ => some (0x80#8, 0x80#8)
  | .oddHeader _ => some (0x80#8, 0x80#8)
  | .groupHeader _ => some (0x80#8, 0x80#8)
  | .stuffedByte _ => some (0x80#8, 0x80#8)
  | .chk1 _ => some (0xAA#8, 0xAA#8)
  | .chk2 _ => some (0xAA#8, 0xAA#8)

/-- The first byte of the operation's code has the bits the opcode table fixes. -/
def Statement (i : Instr) : Prop :=
  i.wellFormed Params.default = true →
    ∀ m k, tableCode i = some (m, k) → ∃ b bs, (encode i).2 = b :: bs ∧ b &&& k = m

/-- A code whose first byte is `b` has the shape, when `b` has the fixed bits. -/
theorem of_first {i : Instr} {b m k : Byte} {bs : List Byte} (he : (encode i).2 = b :: bs)
    (ht : tableCode i = some (m, k)) (hb : b &&& k = m) : Statement i := by
  intro _ m' k' h
  rw [ht] at h
  cases h
  exact ⟨b, bs, he, hb⟩

/-- A row to which the table gives no number has nothing to show. -/
theorem of_none {i : Instr} (ht : tableCode i = none) : Statement i := by
  intro _ m k h
  rw [ht] at h
  cases h

/-- Setting bit 7 sets bit 7. -/
theorem or_high (x : Byte) : (0x80#8 ||| x) &&& 0x80#8 = 0x80#8 := by revert x; decide

theorem addDevice (who : Issuer) (slot dtype : Byte) : Statement (.addDevice who slot dtype) := of_first (show _ = 0x01#8 :: _ from rfl) rfl (by decide)

theorem removeDevice (who : Issuer) (slot : Byte) : Statement (.removeDevice who slot) := of_first (show _ = 0x02#8 :: _ from rfl) rfl (by decide)

theorem setActive (who : Issuer) (addr v : Byte) : Statement (.setActive who addr v) := of_first (show _ = 0x03#8 :: _ from rfl) rfl (by decide)

theorem setActiveSlot (who : Issuer) (slot v : Byte) : Statement (.setActiveSlot who slot v) := of_first (show _ = 0x04#8 :: _ from rfl) rfl (by decide)

theorem deviceByAddr (who : Issuer) (addr : Byte) : Statement (.deviceByAddr who addr) := of_first (show _ = 0x05#8 :: _ from rfl) rfl (by decide)

theorem encodePacket (who : Issuer) (sourceId packetType status : Byte) (n : BitVec 16) (data : List Byte) : Statement (.encodePacket who sourceId packetType status n data) := of_first (show _ = 0x10#8 :: _ from rfl) rfl (by decide)

theorem decodePacket (who : Issuer) (n : BitVec 16) (data : List Byte) : Statement (.decodePacket who n data) := of_first (show _ = 0x11#8 :: _ from rfl) rfl (by decide)

theorem sendReply (who : Issuer) (packetType status : Byte) (n : BitVec 16) (data : List Byte) : Statement (.sendReply who packetType status n data) := of_first (show _ = 0x20#8 :: _ from rfl) rfl (by decide)

theorem recvData (who : Issuer) (n : BitVec 16) : Statement (.recvData who n) := of_first (show _ = 0x21#8 :: _ from rfl) rfl (by decide)

theorem devDone (who : Issuer) : Statement (.devDone who) := of_first (show _ = 0x2F#8 :: _ from rfl) rfl (by decide)

theorem portReserved (who : Issuer) (op : Byte) : Statement (.portReserved who op) := of_none rfl

theorem pollDispatch : Statement (.pollDispatch) := of_none rfl

theorem eIdle : Statement (.eIdle) := of_first (show _ = 0x00#8 :: _ from rfl) rfl (by decide)

theorem eReset : Statement (.eReset) := of_first (show _ = 0x01#8 :: _ from rfl) rfl (by decide)

theorem busReset : Statement (.busReset) := of_none rfl

theorem eEnable : Statement (.eEnable) := of_first (show _ = 0x02#8 :: _ from rfl) rfl (by decide)

theorem claim : Statement (.claim) := of_none rfl

theorem eClaimWait : Statement (.eClaimWait) := of_first (show _ = 0x03#8 :: _ from rfl) rfl (by decide)

theorem eDecode : Statement (.eDecode) := of_first (show _ = 0x04#8 :: _ from rfl) rfl (by decide)

theorem initAssign : Statement (.initAssign) := of_none rfl

theorem dispatchCmd : Statement (.dispatchCmd) := of_none rfl

theorem dispatchIoerror : Statement (.dispatchIoerror) := of_none rfl

theorem eInitReply : Statement (.eInitReply) := of_first (show _ = 0x05#8 :: _ from rfl) rfl (by decide)

theorem eDevice : Statement (.eDevice) := of_first (show _ = 0x06#8 :: _ from rfl) rfl (by decide)

theorem eFinish : Statement (.eFinish) := of_first (show _ = 0x07#8 :: _ from rfl) rfl (by decide)

theorem sWaitRise : Statement (.sWaitRise) := of_first (show _ = 0x01#8 :: _ from rfl) rfl (by decide)

theorem sWaitFall : Statement (.sWaitFall) := of_first (show _ = 0x02#8 :: _ from rfl) rfl (by decide)

theorem rWaitRise : Statement (.rWaitRise) := of_first (show _ = 0x03#8 :: _ from rfl) rfl (by decide)

theorem rWaitFall : Statement (.rWaitFall) := of_first (show _ = 0x04#8 :: _ from rfl) rfl (by decide)

theorem isrStart : Statement (.isrStart) := of_none rfl

theorem iWaitRise : Statement (.iWaitRise) := of_first (show _ = 0x01#8 :: _ from rfl) rfl (by decide)

theorem isrStage : Statement (.isrStage) := of_none rfl

theorem edgeDetect : Statement (.edgeDetect) := of_none rfl

theorem timerTick : Statement (.timerTick) := of_none rfl

theorem phaseReset (p : Phase) : Statement (.phaseReset p) := by
  intro hw m k h
  cases h
  refine ⟨_, _, rfl, ?_⟩
  revert p
  decide

theorem phaseEnable (p : Phase) : Statement (.phaseEnable p) := by
  intro hw m k h
  cases h
  refine ⟨_, _, rfl, ?_⟩
  revert p
  decide

theorem phaseIdle (p : Phase) : Statement (.phaseIdle p) := of_none rfl

theorem typeCommand : Statement (.typeCommand) := of_first (show _ = 0x80#8 :: _ from rfl) rfl (by decide)

theorem typeStatus : Statement (.typeStatus) := of_first (show _ = 0x81#8 :: _ from rfl) rfl (by decide)

theorem typeData : Statement (.typeData) := of_first (show _ = 0x82#8 :: _ from rfl) rfl (by decide)

theorem typeReserved (t : Byte) : Statement (.typeReserved t) := by
  intro hw m k h
  cases h
  refine ⟨_, _, rfl, ?_⟩
  revert t
  decide

theorem initCmd : Statement (.initCmd) := of_first (show _ = 0x85#8 :: _ from rfl) rfl (by decide)

theorem cmdStatus80 (params : List Byte) : Statement (.cmdStatus80 params) := of_first (show _ = 0x80#8 :: _ from rfl) rfl (by decide)

theorem cmdRead81 (params : List Byte) : Statement (.cmdRead81 params) := of_first (show _ = 0x81#8 :: _ from rfl) rfl (by decide)

theorem cmdWrite82 (params : List Byte) : Statement (.cmdWrite82 params) := of_first (show _ = 0x82#8 :: _ from rfl) rfl (by decide)

theorem cmdControl84 (params : List Byte) : Statement (.cmdControl84 params) := of_first (show _ = 0x84#8 :: _ from rfl) rfl (by decide)

theorem cmdOpen86 (params : List Byte) : Statement (.cmdOpen86 params) := of_first (show _ = 0x86#8 :: _ from rfl) rfl (by decide)

theorem cmdClose87 (params : List Byte) : Statement (.cmdClose87 params) := of_first (show _ = 0x87#8 :: _ from rfl) rfl (by decide)

theorem cmdRead88 (params : List Byte) : Statement (.cmdRead88 params) := of_first (show _ = 0x88#8 :: _ from rfl) rfl (by decide)

theorem cmdWrite89 (params : List Byte) : Statement (.cmdWrite89 params) := of_first (show _ = 0x89#8 :: _ from rfl) rfl (by decide)

theorem cmdNone (data : List Byte) : Statement (.cmdNone data) := of_none rfl

theorem sync : Statement (.sync) := of_first (show _ = 0xFF#8 :: _ from rfl) rfl (by decide)

theorem start : Statement (.start) := of_first (show _ = 0xC3#8 :: _ from rfl) rfl (by decide)

theorem endMark : Statement (.endMark) := of_first (show _ = 0xC8#8 :: _ from rfl) rfl (by decide)

theorem header (dest src ptype aux stat oddcnt grp7cnt : Byte) : Statement (.header dest src ptype aux stat oddcnt grp7cnt) := by
  intro hw m k h
  cases h
  refine ⟨_, _, rfl, ?_⟩
  have hd : highBit dest = true := by simp [Instr.wellFormed] at hw; exact hw.1
  clear hw
  revert dest
  decide

theorem counts (numOdd numGroups : BitVec 7) : Statement (.counts numOdd numGroups) := of_first rfl rfl (or_high _)

theorem oddHeader (msbs : BitVec 6) : Statement (.oddHeader msbs) := of_first rfl rfl (or_high _)

theorem groupHeader (msbs : BitVec 7) : Statement (.groupHeader msbs) := of_first rfl rfl (or_high _)

theorem stuffedByte (low : BitVec 7) : Statement (.stuffedByte low) := of_first rfl rfl (or_high _)

theorem chk1 (bits : BitVec 4) : Statement (.chk1 bits) := of_first rfl rfl (by revert bits; decide)

theorem chk2 (bits : BitVec 4) : Statement (.chk2 bits) := of_first rfl rfl (by revert bits; decide)

end Sys2Proof.Laws.CodeShape
end

