-- ==== Sys2Proof/Tests/Slice0.lean ====
section
/-! SUPPORT. Small tests: ill-formed terms are refused, words written out from the spec's encodings decode to the
operations they stand for, single steps give the values of spec/95_test_vectors.md (each test names its vector), and
concrete states meet the hypotheses of the obligations. -/

namespace Sys2Proof.Tests

open Sys2Proof Sys2Proof.Machine

set_option Elab.async false

/-- The next state, when there is one. -/
def next? (o : Out) : Option State :=
  match o with
  | .next t => some t
  | .fault _ => none
  | .refused _ => none

/-- A value read from the next state. -/
def got {α : Type} (f : State → α) (o : Out) : Option α := (next? o).map f

/-- The default parameters. -/
abbrev P : Params := Params.default

/-- `HELLO WORLD` (V1). -/
def hello : List Byte := [0x48#8, 0x45#8, 0x4C#8, 0x4C#8, 0x4F#8, 0x20#8, 0x57#8, 0x4F#8, 0x52#8, 0x4C#8, 0x44#8]

/-- The 23-byte body of V1. -/
def helloBody : List Byte :=
  [0x80#8, 0x82#8, 0x82#8, 0x80#8, 0x80#8, 0x84#8, 0x81#8, 0x80#8, 0xC8#8, 0xC5#8, 0xCC#8, 0xCC#8, 0x80#8, 0xCF#8,
   0xA0#8, 0xD7#8, 0xCF#8, 0xD2#8, 0xCC#8, 0xC4#8, 0xAF#8, 0xFA#8, 0xC8#8]

/-- The body of INIT to 0x81 (V14). -/
def initBody : List Byte :=
  [0x81#8, 0x80#8, 0x80#8, 0x80#8, 0x80#8, 0x82#8, 0x81#8, 0xC0#8, 0x85#8, 0x83#8, 0x80#8, 0x80#8, 0x80#8, 0x80#8,
   0x80#8, 0x80#8, 0x80#8, 0x80#8, 0xAE#8, 0xAA#8, 0xC8#8]

/-- The body of STATUS to 0x81 (V14), with the two trailer bytes given: AA AA in V14, AB AA in STAT81X. -/
def statusBody (c1 c2 : Byte) : List Byte :=
  [0x81#8, 0x80#8, 0x80#8, 0x80#8, 0x80#8, 0x82#8, 0x81#8, 0xC0#8, 0x80#8, 0x83#8, 0x80#8, 0x81#8, 0x80#8, 0x80#8,
   0x80#8, 0x80#8, 0x80#8, 0x80#8, c1, c2, 0xC8#8]

/-- Two active devices with the given addresses, CHAIN = [1, 0] (V50). -/
def twoDevices (a0 a1 : Byte) (s : State) : State :=
  { s with
    dev := [{ present := true, active := true, addr := a0, dtype := 0x10#8 },
            { present := true, active := true, addr := a1, dtype := 0x20#8 }, Device.empty, Device.empty],
    chain := [1, 0] }

/-- A staged body. -/
def withBody (b : List Byte) (s : State) : State :=
  { s with staged := true, mb := writeBytes 0 b [], mbLen := b.length, mbLock := true }

/-- A staged command at the claim. -/
def atClaim (b : List Byte) : State :=
  { withBody b (twoDevices 0#8 0#8 State.reset) with eng := .enable, phase := 0b1010#4 }

/-- A claimed command at the decode. -/
def atDecode (kind : CurKind) (b : List Byte) : State :=
  { withBody b (twoDevices 0#8 0x81#8 State.reset) with eng := .decode, curKind := kind, curSlot := 1, ack := true,
                                                        phase := 0b1010#4 }

/-- A dispatched command, the device layer's turn. -/
def atDevice : State :=
  { atDecode .cmd (statusBody 0xAA#8 0xAA#8) with eng := .device, dispValid := true, dispSlot := 1, dispKind := .cmd }

/-- A transport operation of the device layer, with a packet in TXBUF and in RXBUF. -/
def atTransfer (t : TrState) (ack : Bool) : State :=
  { atDevice with
    trState := t, busy := true, ack := ack, txBuf := writeBytes 0 (syncBytes ++ [startByte] ++ helloBody) [],
    txLen := 30, rxBuf := writeBytes 0 helloBody [], rxLen := 23, rxLock := true, rxExpect := 30,
    trLimit := 100000#32 }

/-! ### WellFormed refuses ill-formed terms -/

theorem test_wf_encode_length : (Instr.encodePacket .app 1#8 0x81#8 0#8 2#16 [5#8]).wellFormed P = false := by decide
theorem test_wf_decode_length : (Instr.decodePacket .app 0#16 [5#8]).wellFormed P = false := by decide
theorem test_wf_send_length : (Instr.sendReply .devlayer 0x81#8 0#8 1#16 []).wellFormed P = false := by decide
theorem test_wf_reserved_op : (Instr.portReserved .app 0x2F#8).wellFormed P = false := by decide
theorem test_wf_phase_reset : (Instr.phaseReset 0b1010#4).wellFormed P = false := by decide
theorem test_wf_phase_enable : (Instr.phaseEnable 0b0101#4).wellFormed P = false := by decide
theorem test_wf_phase_idle : (Instr.phaseIdle 0b1111#4).wellFormed P = false := by decide
theorem test_wf_type_named : (Instr.typeReserved 0x81#8).wellFormed P = false := by decide
theorem test_wf_type_low : (Instr.typeReserved 0x03#8).wellFormed P = false := by decide
theorem test_wf_cmd_none : (Instr.cmdNone [0x85#8, 3#8]).wellFormed P = false := by decide
theorem test_wf_header : (Instr.header 0x81#8 0x80#8 0x00#8 0x80#8 0x80#8 0x82#8 0x81#8).wellFormed P = false := by decide
theorem test_wf_counts : (Instr.counts 7#7 1#7).wellFormed P = false := by decide

/-! ### Words written out from the encodings decode to their operations -/

/-- The port records of R93: op, A, B, C, N (low byte first, notes/assumptions/14.md), data. -/
theorem test_decode_port :
    decode P (.port .app) [0x01#8, 0x02#8, 0x10#8, 0#8, 0#8, 0#8] = .ok (.addDevice .app 0x02#8 0x10#8)
    ∧ decode P (.port .app) [0x02#8, 0x03#8, 0#8, 0#8, 0#8, 0#8] = .ok (.removeDevice .app 0x03#8)
    ∧ decode P (.port .app) [0x03#8, 0x81#8, 0x01#8, 0#8, 0#8, 0#8] = .ok (.setActive .app 0x81#8 0x01#8)
    ∧ decode P (.port .devlayer) [0x04#8, 0x02#8, 0x01#8, 0#8, 0#8, 0#8] = .ok (.setActiveSlot .devlayer 0x02#8 0x01#8)
    ∧ decode P (.port .app) [0x05#8, 0x82#8, 0#8, 0#8, 0#8, 0#8] = .ok (.deviceByAddr .app 0x82#8)
    ∧ decode P (.port .app) [0x10#8, 0x02#8, 0x82#8, 0x7F#8, 0x02#8, 0x00#8, 0x48#8, 0x45#8]
        = .ok (.encodePacket .app 0x02#8 0x82#8 0x7F#8 2#16 [0x48#8, 0x45#8])
    ∧ decode P (.port .app) [0x11#8, 0#8, 0#8, 0#8, 0x01#8, 0x00#8, 0x80#8] = .ok (.decodePacket .app 1#16 [0x80#8])
    ∧ decode P (.port .devlayer) [0x20#8, 0x81#8, 0x27#8, 0#8, 0x01#8, 0x00#8, 0xF8#8]
        = .ok (.sendReply .devlayer 0x81#8 0x27#8 1#16 [0xF8#8])
    ∧ decode P (.port .devlayer) [0x21#8, 0#8, 0#8, 0#8, 0x5B#8, 0x02#8] = .ok (.recvData .devlayer 603#16)
    ∧ decode P (.port .devlayer) [0x2F#8, 0#8, 0#8, 0#8, 0#8, 0#8] = .ok (.devDone .devlayer)
    ∧ decode P (.port .app) [0x06#8, 0#8, 0#8, 0#8, 0#8, 0#8] = .ok (.portReserved .app 0x06#8)
    ∧ decode P (.port .app) [0x01#8, 0#8] = .error .truncated := by decide

/-- The ENG codes of R31; the conditioned rows' selector bits are notes/assumptions/15.md. -/
theorem test_decode_eng :
    [0x00#8, 0x01#8, 0x02#8, 0x03#8, 0x04#8, 0x05#8, 0x06#8, 0x07#8].map (fun b => decode P .engStep [b])
      = [.ok .eIdle, .ok .eReset, .ok .eEnable, .ok .eClaimWait, .ok .eDecode, .ok .eInitReply, .ok .eDevice,
         .ok .eFinish]
    ∧ [0x08#8, 0x0A#8, 0x12#8, 0x1C#8, 0x24#8, 0x2C#8, 0x10#8].map (fun b => decode P .engStep [b])
      = [.ok .busReset, .ok .busReset, .ok .claim, .ok .initAssign, .ok .dispatchCmd, .ok .dispatchIoerror,
         .error .unknownCode] := by decide

/-- The TR_STATE codes of R37 and the ISR_STATE codes of R40. -/
theorem test_decode_steps :
    [0x00#8, 0x01#8, 0x02#8, 0x03#8, 0x04#8, 0x05#8].map (fun b => decode P .trStep [b])
      = [.error .unknownCode, .ok .sWaitRise, .ok .sWaitFall, .ok .rWaitRise, .ok .rWaitFall, .error .unknownCode]
    ∧ [0x00#8, 0x01#8, 0x03#8].map (fun b => decode P .isrStep [b]) = [.ok .isrStart, .ok .iWaitRise, .ok .isrStage]
    ∧ [0x00#8, 0x01#8].map (fun b => decode P .timerStep [b]) = [.ok .timerTick, .ok .edgeDetect]
    ∧ decode P .pollStep [] = .ok .pollDispatch := by decide

/-- The phase vectors of V40, and a code that is no 4-bit vector. -/
theorem test_decode_phase :
    decode P .phase [0x05#8] = .ok (.phaseReset 0b0101#4)
    ∧ [0x0A#8, 0x0B#8, 0x0E#8, 0x0F#8].map (fun b => decode P .phase [b])
      = [.ok (.phaseEnable 0b1010#4), .ok (.phaseEnable 0b1011#4), .ok (.phaseEnable 0b1110#4),
         .ok (.phaseEnable 0b1111#4)]
    ∧ [0x00#8, 0x01#8, 0x02#8, 0x03#8, 0x04#8, 0x06#8, 0x07#8, 0x08#8, 0x09#8, 0x0C#8, 0x0D#8].map
        (fun b => decode P .phase [b])
      = [0#4, 1#4, 2#4, 3#4, 4#4, 6#4, 7#4, 8#4, 9#4, 12#4, 13#4].map (fun p => .ok (.phaseIdle p))
    ∧ decode P .phase [0x15#8] = .error .unknownCode := by decide

/-- The TYPE byte of R85 and the opcodes of R21, R92 and R95. -/
theorem test_decode_type_and_command :
    [0x80#8, 0x81#8, 0x82#8, 0x83#8, 0x03#8].map (fun b => decode P .pktType [b])
      = [.ok .typeCommand, .ok .typeStatus, .ok .typeData, .ok (.typeReserved 0x83#8), .error .fixedBits]
    ∧ [0x85#8, 0x80#8, 0x81#8, 0x82#8, 0x84#8, 0x86#8, 0x87#8, 0x88#8, 0x89#8, 0x01#8].map
        (fun b => decode P .cmdOpcode [b, 0x03#8])
      = [.ok .initCmd, .ok (.cmdStatus80 [3#8]), .ok (.cmdRead81 [3#8]), .ok (.cmdWrite82 [3#8]),
         .ok (.cmdControl84 [3#8]), .ok (.cmdOpen86 [3#8]), .ok (.cmdClose87 [3#8]), .ok (.cmdRead88 [3#8]),
         .ok (.cmdWrite89 [3#8]), .ok (.cmdNone [1#8, 3#8])]
    ∧ decode P .cmdOpcode [] = .ok (.cmdNone []) := by decide

/-- The frame elements of R81 to R89: E5's odd header D4 and trailer AF AB, E6's group header C1 (V5). -/
theorem test_decode_frame :
    decode P (.frame .sync) [0xFF#8, 0x3F#8, 0xCF#8, 0xF3#8, 0xFC#8, 0xFF#8] = .ok .sync
    ∧ decode P (.frame .start) [0xC3#8] = .ok .start ∧ decode P (.frame .endMark) [0xC8#8] = .ok .endMark
    ∧ decode P (.frame .header) [0x81#8, 0x80#8, 0x80#8, 0x80#8, 0x80#8, 0x82#8, 0x81#8]
        = .ok (.header 0x81#8 0x80#8 0x80#8 0x80#8 0x80#8 0x82#8 0x81#8)
    ∧ decode P (.frame .counts) [0x86#8, 0xC9#8] = .ok (.counts 6#7 73#7)
    ∧ decode P (.frame .counts) [0x87#8, 0x80#8] = .error .oddCount
    ∧ decode P (.frame .oddHeader) [0xD4#8] = .ok (.oddHeader 0b101010#6)
    ∧ decode P (.frame .groupHeader) [0xC1#8] = .ok (.groupHeader 0b1000001#7)
    ∧ decode P (.frame .stuffed) [0xC8#8] = .ok (.stuffedByte 0x48#7)
    ∧ decode P (.frame .chk1) [0xAF#8] = .ok (.chk1 0b0011#4) ∧ decode P (.frame .chk2) [0xFA#8] = .ok (.chk2 0b1100#4)
    ∧ decode P (.frame .endMark) [0xC9#8] = .error .fixedBits := by decide

/-- Bare words of the opcode table (notes/assumptions/1.md). -/
theorem test_table_words :
    decodeTableWord 8 0x10 = some (.encodePacket .app 0#8 0#8 0#8 0#16 [])
    ∧ decodeTableWord 8 0x2F = some (.devDone .devlayer) ∧ decodeTableWord 8 0xC3 = some .start
    ∧ decodeTableWord 8 0x85 = some .initCmd ∧ decodeTableWord 8 0x0A = some (.phaseEnable 0b1010#4)
    ∧ decodeTableWord 48 0xFFFCF3CF3FFF = some .sync ∧ decodeTableWord 8 0x07 = some .eFinish := by decide +kernel

/-! ### The codec (V1, V5, V8, V9, V11, V14) -/

/-- V1. -/
theorem test_encode_hello : encodeRaw P 2#8 0x82#8 0#8 hello = syncBytes ++ [0xC3#8] ++ helloBody := by decide +kernel

/-- V5, E5 and E6: odd bytes with their high bits in the odd header, and a group with its own in the group header. -/
theorem test_encode_odd :
    (encodeRaw P 1#8 0x81#8 0#8 [0x80#8, 1#8, 0x82#8, 3#8, 0x84#8, 5#8]).drop 12
      = [0x86#8, 0x80#8, 0xD4#8, 0x80#8, 0x81#8, 0x82#8, 0x83#8, 0x84#8, 0x85#8, 0xAF#8, 0xAB#8, 0xC8#8]
    ∧ (encodeRaw P 1#8 0x81#8 0#8 [0x80#8, 0#8, 0#8, 0#8, 0#8, 0#8, 0x81#8]).drop 12
      = [0x80#8, 0x81#8, 0xC1#8, 0x80#8, 0x80#8, 0x80#8, 0x80#8, 0x80#8, 0x80#8, 0x81#8, 0xAA#8, 0xEA#8, 0xC8#8] := by
  decide +kernel

/-- V8: ENCODE above the bound replies RC = 9, RN = 0 and records code 9. -/
theorem test_encode_bound :
    got (fun t => (t.replyApp.map (fun r => (r.rc, r.rn)), t.lastErr, t.errFlags))
      (exec (.encodePacket .app 1#8 0x81#8 0#8 515#16 (List.replicate 515 0#8)) State.reset)
      = some (some (9#8, some 0#16), 9#8, 0x0200#16) := by decide +kernel

/-- V9, D1: a DECODE request of V1's body. -/
theorem test_decode_hello :
    got (fun t => (t.replyApp, t.lastChk, t.lastChkV)) (exec (.decodePacket .app 23#16 helloBody) State.reset)
      = some (some { rc := 0#8, r0 := some 1#8, rn := some 11#16, rdata := some hello }, 0xA5#8, true) := by
  decide +kernel

/-- V9, D8: bit 7 of a stuffed byte cleared is ERR_FRAMING, with the checksum recorded. -/
theorem test_decode_framing :
    got (fun t => (t.replyApp.map (fun r => (r.rc, r.r0)), t.lastErr, t.lastChk))
      (exec (.decodePacket .app 23#16 (helloBody.set 8 0x48#8)) State.reset)
      = some (some (0#8, some 0#8), 4#8, 0xA5#8) := by decide +kernel

/-- The error a decode ends in. -/
def errOf (d : DecodeResult) : Option (Err × Option Byte) :=
  match d with
  | .good _ _ => none
  | .bad e rx => some (e, rx)

/-- V9, D2 to D5, D7, D11: the first failing check names the error; a structural error reads no checksum. -/
theorem test_decode_errors :
    errOf (decodeBody P 0#8 false (helloBody.take 6)) = some (.trunc, none)
    ∧ errOf (decodeBody P 0#8 false (helloBody.set 5 0x87#8)) = some (.oddcnt, none)
    ∧ errOf (decodeBody P 0#8 false ([0x80#8, 0x81#8, 0x81#8, 0x80#8, 0x80#8, 0x80#8, 0xCA#8]
        ++ List.replicate 600 0#8)) = some (.length, none)
    ∧ errOf (decodeBody P 0#8 false (helloBody.take 22)) = some (.trunc, none)
    ∧ errOf (decodeBody P 0#8 false (helloBody.set 20 0xAE#8)) = some (.checksum, some 0xA4#8)
    ∧ errOf (decodeBody P 0#8 false ((helloBody.set 8 0x48#8).set 20 0xAE#8)) = some (.checksum, some 0xA4#8) := by
  decide +kernel

/-- V11, Q1, Q2 and Q4: the shim accepts the same checksum in its length range only. -/
theorem test_quirk :
    errOf (decodeBody { P with quirkEnable := true, quirkLenMin := 11, quirkLenMax := 11 } 0#8 false
        (helloBody.set 8 0xC9#8)) = some (.checksum, some 0xA5#8)
    ∧ errOf (decodeBody { P with quirkEnable := true, quirkLenMin := 11, quirkLenMax := 11 } 0xA5#8 true
        (helloBody.set 8 0xC9#8)) = none
    ∧ errOf (decodeBody { P with quirkEnable := true, quirkLenMin := 12, quirkLenMax := 20 } 0xA5#8 true
        (helloBody.set 8 0xC9#8)) = some (.checksum, some 0xA5#8) := by decide +kernel

/-- V14: the opcode peeked from bodies 7 and 8; a body of 8 bytes has none. -/
theorem test_peek :
    peekOpcode initBody = some 0x85#8 ∧ peekOpcode (statusBody 0xAA#8 0xAA#8) = some 0x80#8
    ∧ peekOpcode (initBody.take 8) = none ∧ peekDest initBody = 0x81#8 := by decide +kernel

/-! ### The line (V32, V33) -/

/-- V32. -/
theorem test_nsamp : nsamp 4 28 = 986 ∧ nsamp 2 1 = 18 ∧ nsamp 8 605 = 42592 := by decide

/-- V33: `C3 81` at OS = 2 with a lead of 2 samples. -/
theorem test_deserialize :
    deserialize { P with os := 2 } (lineSamples (serialize [0xC3#8, 0x81#8]) 2 2 36) = (true, [0x81#8]) := by
  decide +kernel

/-- V34: a one-sample glitch across a window boundary is two 1 bits. -/
theorem test_windows :
    recoverBits 4 [false, false, false, true, false, false, false, false] = [true, true] := by decide +kernel

/-! ### The port (V50 to V54) -/

/-- V50, then V51: ADD_DEVICE, and adding a present slot again. -/
theorem test_add_device :
    got (fun t => (t.chain, (devAt t 1).dtype, t.replyApp.map (fun r => r.rc)))
      (exec (.addDevice .app 1#8 0x20#8) { State.reset with chain := [0] }) = some ([1, 0], 0x20#8, some 0#8)
    ∧ got (fun t => (t.chain, t.lastErr, t.errFlags)) (exec (.addDevice .app 0#8 0x30#8) (twoDevices 0#8 0#8 State.reset))
      = some ([1, 0], 11#8, 0x0800#16) := by decide +kernel

/-- V52: REMOVE_DEVICE keeps the order of the others. -/
theorem test_remove_device :
    got (fun t => (t.chain, devAt t 1)) (exec (.removeDevice .app 1#8)
      { twoDevices 0#8 0x81#8 State.reset with chain := [2, 1, 0] }) = some ([2, 0], Device.empty) := by decide +kernel

/-- V53: SET_ACTIVE keeps ADDR. -/
theorem test_set_active :
    got (fun t => ((devAt t 1).active, (devAt t 1).addr, (devAt t 0).active))
      (exec (.setActive .app 0x81#8 0#8) (twoDevices 0x82#8 0x81#8 State.reset)) = some (false, 0x81#8, true) := by
  decide +kernel

/-- V54: SET_ACTIVE_SLOT with v = 2 is refused and records nothing. -/
theorem test_set_active_slot_refused :
    got (fun t => (t.replyApp.map (fun r => r.rc), t.lastErr, t.refusedOp))
      (exec (.setActiveSlot .app 0#8 2#8) (twoDevices 0#8 0#8 State.reset)) = some (some 10#8, 0#8, true) := by
  decide +kernel

/-- V53: the whole byte is matched. -/
theorem test_device_by_addr :
    got (fun t => t.replyApp.map (fun r => r.r0)) (exec (.deviceByAddr .app 0x82#8) (twoDevices 0x82#8 0x81#8 State.reset))
      = some (some (some 0#8))
    ∧ got (fun t => t.replyApp.map (fun r => r.r0))
        (exec (.deviceByAddr .app 0x01#8) (twoDevices 0x82#8 0x81#8 State.reset)) = some (some (some 0xFF#8)) := by
  decide +kernel

/-- V12: the packet of a status reply of the device at 0x81. -/
theorem test_send_reply :
    got (fun t => (readBytes t.txBuf 13 9, t.txLen, t.ack, t.trState))
      (exec (.sendReply .devlayer 0x81#8 0#8 4#16 [0xF8#8, 0#8, 0#8, 0#8]) atDevice)
      = some (some [0x80#8, 0xC0#8, 0xF8#8, 0x80#8, 0x80#8, 0x80#8, 0xFE#8, 0xBE#8, 0xC8#8], 22, false, .sWaitRise) := by
  decide +kernel

/-- V54: SEND_REPLY under an IOERROR dispatch is refused. -/
theorem test_send_reply_ioerror :
    got (fun t => t.replyDev.map (fun r => r.rc))
      (exec (.sendReply .devlayer 0x81#8 0#8 0#16 []) { atDevice with dispKind := .ioerror }) = some (some 10#8) := by
  decide +kernel

/-- V46, round 39: RECV_DATA N = 30 at TIMER 39. -/
theorem test_recv_data :
    got (fun t => (t.ack, t.rxExpect, t.trT0, t.trLimit, t.trState))
      (exec (.recvData .devlayer 30#16) { atDevice with timer := 39#32 })
      = some (false, 30, 39#32, 100000#32, .rWaitRise) := by decide +kernel

/-- P2, round 43. -/
theorem test_dev_done :
    got (fun t => (t.dispValid, t.eng, t.ack)) (exec (.devDone .devlayer) atDevice) = some (false, .finish, true) := by
  decide +kernel

/-! ### The engine (V41, V43, V44, V61) -/

/-- V41: a bus reset from E_IDLE clears the addresses and keeps the rest. -/
theorem test_bus_reset :
    got (fun t => (t.eng, t.staged, (devAt t 0).addr, devAt t 1, t.chain))
      (exec .eIdle { withBody initBody (twoDevices 0x82#8 0x81#8 State.reset) with phase := 0b0101#4 })
      = some (.reset, false, 0#8, { present := true, active := true, addr := 0#8, dtype := 0x20#8 }, [1, 0]) := by decide +kernel

/-- V41: Idle in E_ENABLE keeps STAGED. -/
theorem test_enable_idle :
    got (fun t => (t.eng, t.staged)) (exec .eEnable { atClaim initBody with phase := 0b0000#4 })
      = some (.idle, true) := by decide +kernel

/-- P1, round 11: the claim of the first INIT. -/
theorem test_claim_init :
    got (fun t => (t.curKind, t.curSlot, t.ack, t.wT0, t.eng)) (exec .claim { atClaim initBody with timer := 11#32 })
      = some (.init, 1, true, 11#32, .claimWait) := by decide +kernel

/-- P3, round 35: no device holds the address. -/
theorem test_claim_unclaimed :
    got (fun t => (t.curKind, t.ack, t.eng, t.lastErr)) (exec .claim (atClaim (statusBody 0xAA#8 0xAA#8)))
      = some (.none, false, .finish, 0#8) := by decide +kernel

/-- V43, V42: the limit is reached at 103, and across the wrap; success is tested first. -/
theorem test_wait :
    waitReq true 100#32 3#32 { State.reset with timer := 102#32 } = .stay
    ∧ waitReq true 100#32 3#32 { State.reset with timer := 103#32 } = .timeout
    ∧ waitReq true 100#32 3#32 { State.reset with timer := 103#32, phase := 0b1011#4 } = .success
    ∧ waitReq true 0xFFFFFFF0#32 0x20#32 { State.reset with timer := 0xF#32 } = .stay
    ∧ waitReq true 0xFFFFFFF0#32 0x20#32 { State.reset with timer := 0x10#32 } = .timeout := by decide +kernel

/-- V44, round 14: the INIT assignment and the reply of V13 row 1 (slot 0 is still unaddressed). -/
theorem test_init_assign :
    got (fun t => ((devAt t 1).addr, t.curStatus, t.ack, t.eng, readBytes t.txBuf 7 10))
      (exec .eDecode (atDecode .init initBody))
      = some (0x81#8, 0#8, false, .initReply,
          some [0x80#8, 0x81#8, 0x81#8, 0x80#8, 0x80#8, 0x80#8, 0x80#8, 0xAA#8, 0xEA#8, 0xC8#8]) := by decide +kernel

/-- P2, round 38: the dispatch of a STATUS. -/
theorem test_dispatch :
    got (fun t => (t.dispSlot, t.dispKind, t.dispCap, t.dispCmd.params, t.eng))
      (exec .eDecode (atDecode .cmd (statusBody 0xAA#8 0xAA#8)))
      = some (1, .cmd, .status, [3#8, 1#8, 0#8, 0#8, 0#8, 0#8, 0#8, 0#8], .device) := by decide +kernel

/-- P4, round 38 and V61: STAT81X fails with ERR_CHECKSUM and is dispatched as an I/O error. -/
theorem test_dispatch_ioerror :
    got (fun t => (t.dispKind, t.lastErr, t.errFlags, t.lastChk, t.eng))
      (exec .eDecode (atDecode .cmd (statusBody 0xAB#8 0xAA#8)))
      = some (.ioerror, 3#8, 0x0008#16, 0x01#8, .device) := by decide +kernel

/-- P1, round 19. -/
theorem test_finish :
    got (fun t => (t.ack, t.staged, t.curKind, t.eng)) (exec .eFinish { atDecode .init initBody with eng := .finish })
      = some (false, false, .none, .idle) := by decide +kernel

/-! ### The transport (V44 to V47) -/

/-- V44, round 15: the packet is emitted MSB first, FF and 3F at the front, and ACK is asserted. -/
theorem test_send_emit :
    got (fun t => (t.txBits.length, t.txBits.take 16, t.ack, t.trState))
      (exec .sWaitRise { atTransfer .sWaitRise false with phase := 0b1011#4 })
      = some (240, [true, true, true, true, true, true, true, true, false, false, true, true, true, true, true, true],
          true, .sWaitFall) := by decide +kernel

/-- V45: the REQ-rise timeout of a SEND, with its reply. -/
theorem test_send_timeout :
    got (fun t => (t.trResult, t.lastErr, t.ack, t.txBits, t.replyDev.map (fun r => r.rc)))
      (exec .sWaitRise { atTransfer .sWaitRise false with trT0 := 39#32, trLimit := 300000#32, timer := 300039#32 })
      = some (.timeoutRise, 1#8, false, [], some 1#8) := by decide +kernel

/-- V46, round 41, with V1's body: the reply of a RECV carries the data. -/
theorem test_recv_reply :
    got (fun t => (t.trResult, t.trState, t.ack, t.lastChk, t.replyDev)) (exec .rWaitFall (atTransfer .rWaitFall true))
      = some (.ok, .idle, true, 0xA5#8,
          some { rc := 0#8, r0 := some 1#8, rn := some 11#16, rdata := some hello }) := by decide +kernel

/-- V47: a capture that never locked. -/
theorem test_recv_nosync :
    got (fun t => (t.trResult, t.lastErr, t.replyDev.map (fun r => (r.rc, r.r0))))
      (exec .rWaitFall { atTransfer .rWaitFall true with rxLock := false })
      = some (.decodeFail, 8#8, some (0#8, some 0#8)) := by decide +kernel

/-! ### The interrupt, the timer and the CSRs (P1, V51, V60) -/

/-- P1, round 5 (class Reset: discarded) and round 7 (Enable with REQ = 1: the prefetch begins). -/
theorem test_isr_start :
    got (fun t => (t.irqPend, t.isrState)) (exec .isrStart { State.reset with irqPend := true, phase := 0b0101#4 })
      = some (false, .idle)
    ∧ got (fun t => (t.irqPend, t.isrState, t.isrT0))
        (exec .isrStart { State.reset with irqPend := true, phase := 0b1011#4, timer := 7#32 })
      = some (false, .waitRise, 7#32) := by decide +kernel

/-- P1, round 8: the capture of INIT to 0x81 stages a locked body of 22 bytes. -/
theorem test_isr_stage :
    got (fun t => (t.mbLen, t.mbLock, t.staged, readBytes t.mb 0 21))
      (exec .iWaitRise
        { State.reset with isrState := .waitRise, phase := 0b1011#4, hostLine := some (syncBytes ++ [0xC3#8] ++ initBody) })
      = some (22, true, true, some initBody) := by decide +kernel

/-- R44, R223: the tick wraps, and a changed vector is an edge. -/
theorem test_timer :
    got (fun t => (t.timer, t.irqPend, t.prevPhase))
      (exec .timerTick { State.reset with timer := 0xFFFFFFFF#32, phase := 0b0001#4 }) = some (0#32, true, 1#4) := by
  decide +kernel

/-- P1's end state: STATUS 0x00003000, DEV[1] 0x00208103, CHAIN[2] 0xFF. -/
theorem test_csr_read :
    csrWord { State.reset with lastChkV := true, mbLock := true } 0x000 = 0x00003000#32
    ∧ csrWord (twoDevices 0x82#8 0x81#8 State.reset) 0x204 = 0x00208103#32
    ∧ csrWord (twoDevices 0x82#8 0x81#8 State.reset) 0x408 = 0xFF#32
    ∧ csrWord (twoDevices 0x82#8 0x81#8 State.reset) 0x400 = 1#32 := by decide +kernel

/-- V51: a write of 0x0800 to ERR_FLAGS = 0x3800 leaves 0x3000. V60: LAST_ERR is read-only. -/
theorem test_csr_write :
    got (fun t => t.errFlags) (csrWrite 0x00C 32 0x0800#32 { State.reset with errFlags := 0x3800#16 })
      = some 0x3000#16
    ∧ got (fun t => t.lastErr) (csrWrite 0x008 32 0#32 { State.reset with lastErr := 1#8 }) = some 1#8 := by
  decide +kernel

/-- R66: a byte access. -/
theorem test_csr_byte : csrRead 0x00C 8 State.reset = .fault .csrAccess := rfl

/-- V60: raise 3, then 1. -/
theorem test_raise :
    (raise .timeoutReqRise (raise .checksum State.reset)).lastErr = 1#8
    ∧ (raise .timeoutReqRise (raise .checksum State.reset)).errFlags = 0x000A#16 := by decide +kernel

/-- The wire codes: HOST drives the phase, or queues E5's odd header and trailer bytes (V5). -/
theorem test_wire :
    got (fun t => t.phase) (exec (.phaseReset 0b0101#4) State.reset) = some 0b0101#4
    ∧ got (fun t => t.hostLine) (exec (.oddHeader 0b101010#6) State.reset) = some (some [0xD4#8])
    ∧ got (fun t => t.hostLine) (exec (.chk1 0b0011#4) State.reset) = some (some [0xAF#8])
    ∧ got (fun t => t.hostLine) (exec (.counts 4#7 1#7) State.reset) = some (some [0x84#8, 0x81#8]) := by
  decide +kernel

/-- R99: an empty LINE is a line of idle samples, whatever raw samples wait. -/
theorem test_empty_line :
    got (fun t => t.hostLine) (step { State.reset with script := [.line []] }) = some (some [])
    ∧ (capture 5 { State.reset with hostLine := some [], samples := [true, true] }).1 = List.replicate 5 false
    ∧ (capture 5 { State.reset with hostLine := some [], samples := [true, true] }).2.hostLine = none := by decide +kernel

/-! ### Witnesses: concrete states that meet the hypotheses of the obligations

`steps s` says that `s` has a next state; the states are the small ones above. -/

/-- The step ends in a next state. -/
def steps (s : State) : Bool := (next? (step s)).isSome

/-- AddDeviceRegistersSlot, RemoveDeviceUnlinksSlot, SetActiveBySlot: admitted from APP, at slot 0 and at the last slot,
present and absent; and the slot just past the table, which is refused. -/
theorem test_witness_registry :
    admitsRegistry .app (twoDevices 0#8 0x81#8 State.reset) = true ∧ 0 < P.maxDevices ∧ 3 < P.maxDevices
    ∧ (devAt (twoDevices 0#8 0x81#8 State.reset) 0).present = true
    ∧ (devAt (twoDevices 0#8 0x81#8 State.reset) 3).present = false
    ∧ got (fun t => t.replyApp.map (fun r => r.rc)) (exec (.addDevice .app 3#8 1#8) State.reset) = some (some 0#8)
    ∧ got (fun t => t.replyApp.map (fun r => r.rc)) (exec (.addDevice .app 4#8 1#8) State.reset) = some (some 10#8) := by
  decide +kernel

/-- SetActiveByAddress, SetActiveBySlot, DeviceByAddrLooksUp: admitted from DEVLAYER in E_DEVICE; an address some device
holds, one none holds, and 0x00. -/
theorem test_witness_activation :
    admitsActivation .devlayer atDevice = true ∧ slotByAddr 0x81#8 atDevice = some 1 ∧ slotByAddr 0x01#8 atDevice = none
    ∧ slotByAddr 0x00#8 atDevice = none ∧ (1#8).toNat ≤ 1 := by decide +kernel

/-- EncodeRepliesPacket: an empty payload, the longest one and one byte more. -/
theorem test_witness_encode :
    ([] : List Byte).length = (0#16).toNat ∧ (List.replicate 514 0x55#8).length = (514#16).toNat
    ∧ (514#16).toNat ≤ maxPayload P ∧ (List.replicate 515 0x55#8).length = (515#16).toNat
    ∧ ¬ (515#16).toNat ≤ maxPayload P := by decide +kernel

/-- DecodeRepliesVerdict: a good body, a bad one, the longest request and one byte more. -/
theorem test_witness_decode :
    helloBody.length = (23#16).toNat ∧ errOf (decodeBody P 0#8 false helloBody) = none
    ∧ errOf (decodeBody P 0#8 false (helloBody.set 20 0xAE#8)) = some (.checksum, some 0xA4#8)
    ∧ (605#16).toNat ≤ P.bufLen ∧ ¬ (606#16).toNat ≤ P.bufLen := by decide +kernel

/-- SendReplyStartsSend: admitted, at both sides of MAX_PAYLOAD, with room for a packet of no payload. -/
theorem test_witness_send :
    admitsTransfer .devlayer atDevice = true ∧ (List.replicate 514 0#8).length = (514#16).toNat
    ∧ (514#16).toNat ≤ maxPayload P ∧ ¬ (515#16).toNat ≤ maxPayload P ∧ 17 ≤ P.bufLen
    ∧ got (fun t => t.replyDev.map (fun r => r.rc))
        (exec (.sendReply .devlayer 0x81#8 0#8 515#16 (List.replicate 515 0#8)) atDevice) = some (some 9#8) := by
  decide +kernel

/-- RecvDataStartsReceive: admitted, with N at both ends of its range. -/
theorem test_witness_recv :
    admitsTransfer .devlayer atDevice = true ∧ 1 ≤ (1#16).toNat ∧ (605#16).toNat ≤ P.bufLen
    ∧ got (fun t => t.rxExpect) (exec (.recvData .devlayer 605#16) atDevice) = some 605
    ∧ got (fun t => t.replyDev.map (fun r => r.rc)) (exec (.recvData .devlayer 606#16) atDevice) = some (some 10#8)
    ∧ got (fun t => t.replyDev.map (fun r => r.rc)) (exec (.recvData .devlayer 0#16) atDevice) = some (some 10#8) := by
  decide +kernel

/-- DevDoneEndsDispatch; UnlistedOpIsRefused, at the codes beside listed ones. -/
theorem test_witness_dev_done_and_unlisted :
    atDevice.eng = .device ∧ atDevice.trState = .idle ∧ 0x06#8 ∉ portOps ∧ 0x00#8 ∉ portOps ∧ 0x30#8 ∉ portOps := by
  decide +kernel

/-- PollStepDoesOneOfThree, NoStepFaultsOnBuffers: parameters and buffers as required, in each transport state. -/
theorem test_witness_poll :
    ParamsOk P ∧ BuffersOk (atTransfer .idle true) ∧ BuffersOk (atTransfer .sWaitRise false)
    ∧ BuffersOk (atTransfer .sWaitFall true) ∧ BuffersOk (atTransfer .rWaitRise false)
    ∧ BuffersOk (atTransfer .rWaitFall true) := by
  refine ⟨?_, ?_, ?_, ?_, ?_, ?_⟩ <;> decide +kernel

/-- EngineStatesThatSamplePhase: a vector of each class. -/
theorem test_witness_phase :
    phaseClass { State.reset with phase := 0b0101#4 } = .reset ∧ phaseClass { State.reset with phase := 0b1010#4 } = .enable
    ∧ phaseClass State.reset = .idle := by decide +kernel

/-- ClaimRoutesStagedCommand, InitTargetsFirstUnaddressed: the unlocked body, the short body at 6 bytes, the shortest body
with a header, and an INIT with a target. -/
theorem test_witness_claim :
    { atClaim initBody with mbLock := false }.mbLock = false
    ∧ (atClaim (initBody.take 6)).mbLen < 7 ∧ (atClaim (initBody.take 6)).mbLock = true
    ∧ 7 ≤ (atClaim (initBody.take 7)).mbLen ∧ readBytes (atClaim (initBody.take 7)).mb 0 7 = some (initBody.take 7)
    ∧ 7 ≤ (atClaim initBody).mbLen ∧ readBytes (atClaim initBody).mb 0 21 = some initBody
    ∧ peekOpcode initBody = some 0x85#8 ∧ initTarget (atClaim initBody) = some 1 := by decide +kernel

/-- RoutingReachesTheAddressedDevice: one active device holds the DEST, and none does. -/
theorem test_witness_routing :
    peekOpcode (statusBody 0xAA#8 0xAA#8) ≠ some 0x85#8 ∧ peekDest (statusBody 0xAA#8 0xAA#8) = 0x81#8
    ∧ 1 ∈ (twoDevices 0x82#8 0x81#8 State.reset).chain
    ∧ (∀ j ∈ (twoDevices 0x82#8 0x81#8 State.reset).chain,
        (devAt (twoDevices 0x82#8 0x81#8 State.reset) j).addr = 0x81#8 → j = 1)
    ∧ (∀ j ∈ (twoDevices 0x82#8 0#8 State.reset).chain,
        (devAt (twoDevices 0x82#8 0#8 State.reset) j).addr ≠ 0x81#8) := by decide +kernel

/-- ClaimWaitsForReqToFall, at the limit, with REQ held. -/
theorem test_witness_claim_wait :
    got (fun t => (t.eng, t.lastErr))
      (exec .eClaimWait { atDecode .cmd [] with eng := .claimWait, phase := 0b1011#4, wLimit := 3#32, timer := 3#32 })
      = some (.finish, 2#8)
    ∧ got (fun t => t.eng)
        (exec .eClaimWait { atDecode .cmd [] with eng := .claimWait, phase := 0b1011#4, wLimit := 3#32, timer := 2#32 })
      = some .claimWait := by decide +kernel

/-- DecodeStepAssignsOrDispatches, InitAssignsAddressAndReplies, DispatchHandsOverTheCommand: a readable body that decodes,
under both kinds, and one that does not. -/
theorem test_witness_decode_step :
    readBytes (atDecode .init initBody).mb 0 21 = some initBody ∧ errOf (decodeBody P 0#8 false initBody) = none
    ∧ readBytes (atDecode .cmd (statusBody 0xAB#8 0xAA#8)).mb 0 21 = some (statusBody 0xAB#8 0xAA#8)
    ∧ errOf (decodeBody P 0#8 false (statusBody 0xAB#8 0xAA#8)) = some (.checksum, some 0x01#8)
    ∧ (atDecode .init initBody).curKind = .init ∧ 17 ≤ P.bufLen := by decide +kernel

/-- OpcodesDispatchTheirClass: staged commands of each opcode, of an opcode with no row, and of none. -/
theorem test_witness_opcodes :
    [0x80#8, 0x81#8, 0x82#8, 0x84#8, 0x86#8, 0x87#8, 0x88#8, 0x89#8, 0x01#8].map
        (fun op => got (fun t => t.dispCap) (exec (decodeCommand [op, 3#8]) (stageDispatch [op, 3#8] State.reset)))
      = [some .status, some .read, some .write, some .control, some .openCap, some .closeCap, some .read, some .write,
         some .noCap]
    ∧ got (fun t => (t.dispCap, t.eng)) (exec (.cmdNone []) (stageDispatch [] State.reset)) = some (.noCap, .device) := by
  decide +kernel

/-- SendWaitsForReqToRise, ReceiveWaitsForReqToFall: the buffers can be read, REQ is high and low, before and at the
limit. -/
theorem test_witness_transport :
    (readBytes (atTransfer .sWaitRise false).txBuf 0 30).isSome = true
    ∧ readBytes (atTransfer .rWaitFall true).rxBuf 0 23 = some helloBody
    ∧ reqLevel (atTransfer .rWaitFall true) = false
    ∧ reqLevel { atTransfer .rWaitFall true with phase := 0b1011#4 } = true
    ∧ waitReq false 0#32 100000#32 { atTransfer .rWaitFall true with phase := 0b1011#4, timer := 100000#32 } = .timeout
    ∧ waitReq false 0#32 100000#32 { atTransfer .rWaitFall true with phase := 0b1011#4, timer := 99999#32 } = .stay := by
  decide +kernel

/-- InterruptEntryTakesTheRequest, InterruptWritesOnlyItsRegisters: an enabled start that begins a prefetch. -/
theorem test_witness_interrupt :
    enabled .isrStart { State.reset with irqPend := true, phase := 0b1011#4 } = true
    ∧ (next? (exec .isrStart { State.reset with irqPend := true, phase := 0b1011#4 })).isSome = true
    ∧ (next? (exec .iWaitRise { State.reset with isrState := .waitRise })).isSome = true
    ∧ (next? (exec .isrStage { State.reset with isrState := .waitRise, hostLine := some [0xC3#8] })).isSome = true := by
  decide +kernel

/-- HostDrivesTheWireCodes: a TYPE code, a frame code, and REQ driven on PHASE[0] and on its own pin.
CaptureTakesSamplesFromTheHost: queued bytes, an empty list of them, and samples. -/
theorem test_witness_host :
    (encode .typeData).1 = .pktType ∧ (encode .sync).1 = .frame .sync
    ∧ got (fun t => (t.phase, t.reqPin)) (step { State.reset with phase := 0b1010#4, script := [.req true] })
      = some (0b1011#4, false)
    ∧ got (fun t => (t.phase, t.reqPin))
        (step { State.reset with params := { P with reqIsPh0 := false }, phase := 0b1010#4, script := [.req true] })
      = some (0b1010#4, true)
    ∧ { State.reset with hostLine := some [0xC3#8] }.hostLine = some [0xC3#8]
    ∧ { State.reset with hostLine := some [] }.hostLine = some []
    ∧ { State.reset with samples := [true, false] }.hostLine = none := by decide +kernel

/-- EncodedPacketForm: MAX_PAYLOAD for the smallest buffer, the default one and one larger than any packet
(the sections' layout has E5 and E6, test_encode_odd). -/
theorem test_witness_packet_form :
    maxPayload { P with bufLen := 17 } = 0 ∧ maxPayload P = 514 ∧ maxPayload { P with bufLen := 5000 } = 895
    ∧ packetLen 514 = 605 := by decide +kernel

/-- PacketSurvivesTheLine, DecodeInvertsEncode: no payload, and the longest. -/
theorem test_witness_line :
    17 ≤ P.bufLen ∧ 1 ≤ P.os ∧ ([] : List Byte).length ≤ maxPayload P
    ∧ (List.replicate 514 0x55#8).length ≤ maxPayload P ∧ 8 * P.os * (1 + packetLen 0) ≤ 576 := by decide +kernel

/-- SingleBitFlipsAreCaught: the first and the last bit of the body of a packet of no payload. -/
theorem test_witness_flip :
    P.strictFraming = true ∧ P.quirkEnable = false ∧ 0 / 8 < packetLen 0 - 7 ∧ 79 / 8 < packetLen 0 - 7
    ∧ 79 / 8 ≠ 5 ∧ 79 / 8 ≠ 6
    ∧ errOf (decodeBody P 0#8 false (flipBit ((encodeRaw P 1#8 0x81#8 0#8 []).drop 7) 0)) = some (.checksum, some 0x80#8)
    ∧ errOf (decodeBody P 0#8 false (flipBit ((encodeRaw P 1#8 0x81#8 0#8 []).drop 7) 79)) = some (.framing, some 0x80#8) := by
  decide +kernel

/-- The counts of a body that passes decode's structural checks. -/
def countsOf (b : List Byte) : Option (Nat × Nat) :=
  match structureOf P b with
  | .ok c => some c
  | .error _ => none

/-- PeekAgreesWithDecode: odd bytes first, a group first, and no data. -/
theorem test_witness_peek :
    countsOf initBody = some (2, 1)
    ∧ countsOf ((encodeRaw P 1#8 0x81#8 0#8 [0x80#8, 1#8, 2#8, 3#8, 4#8, 5#8, 6#8]).drop 7) = some (0, 1)
    ∧ countsOf [0x80#8, 0x81#8, 0x81#8, 0x80#8, 0x80#8, 0x80#8, 0x80#8, 0xAA#8, 0xEA#8, 0xC8#8] = some (0, 0) := by
  decide +kernel

/-- BufferAccess: at the edge of BUF_LEN, one beyond it, and a byte that holds no value. -/
theorem test_witness_buffer :
    memRead P [(604, 7#8)] 604 1 = .ok [7#8] ∧ memRead P [(604, 7#8)] 604 2 = .error .bufRange
    ∧ memRead P [(604, 7#8)] 603 2 = .error .unwritten ∧ memWrite P [(1, 7#8)] 0 [5#8, 6#8] = .ok [(0, 5#8), (1, 6#8)]
    ∧ memWrite P [] 604 [5#8, 6#8] = .error .bufRange := ⟨rfl, rfl, rfl, rfl, rfl⟩

/-- CsrAccess, CsrFields: the first and the last word, ERR_FLAGS and the words beside it, a misaligned offset, the packed
words, DEV beside MAX_DEVICES, and the first and the last reserved offset. -/
theorem test_witness_csr :
    0x000 < 0x600 ∧ 0x5FC < 0x600 ∧ 0x000 % 4 = 0 ∧ 0x5FC % 4 = 0 ∧ 0x00D % 4 ≠ 0 ∧ P.maxDevices ≤ 128
    ∧ got (fun t => t.errFlags) (csrWrite 0x008 32 0xFFFF#32 { State.reset with errFlags := 2#16 }) = some 2#16
    ∧ got (fun t => t.errFlags) (csrWrite 0x010 32 0xFFFF#32 { State.reset with errFlags := 2#16 }) = some 2#16
    ∧ got (fun t => t.csrOut) (csrRead 0x5FC 32 State.reset) = some 0xFF#32
    ∧ csrWord { State.reset with phase := 0b1011#4, prevPhase := 0b0101#4 } 0x004 = 0x0000251B#32
    ∧ csrWord { State.reset with curKind := .cmd, curSlot := 3, curStatus := 0xFF#8 } 0x020 = 0x00FF0302#32
    ∧ csrWord { State.reset with trResult := .decodeFail, rxLen := 23 } 0x024 = 0x00170003#32
    ∧ csrWord (twoDevices 0#8 0x81#8 State.reset) 0x20C = 0#32 ∧ csrWord State.reset 0x210 = 0#32
    ∧ csrWord State.reset 0x028 = 0#32 ∧ csrWord State.reset 0x1FC = 0#32 := by decide +kernel

/-- StepRunsTheDecodedOperation, FetchWordRunsNext: a code its agent has, one it has not, one of no operation, and the
empty schedule in both turns. -/
theorem test_witness_step :
    got (fun t => (t.eng, t.script))
      (step { State.reset with phase := 0b1010#4, script := [.code .engStep [0x00#8], .req true] })
      = some (.enable, [.req true])
    ∧ got (fun t => t.eng) (step { State.reset with script := [.code .engStep [0x07#8]], ack := true }) = some .idle
    ∧ steps { State.reset with script := [.code .engStep [0x10#8]] } = false
    ∧ got (fun t => (t.timer, t.turn)) (step State.reset) = some (1#32, .core)
    ∧ got (fun t => (t.timer, t.turn)) (step { State.reset with turn := .core }) = some (0#32, .timer)
    ∧ (decodeTableWord 8 0x85).isSome = true ∧ steps (State.reset.withFetchWord 8 0x85) = true := by decide +kernel

/-- DecodeEncodeRoundTrip: operands at the ends of their ranges. -/
theorem test_witness_round_trip :
    (Instr.encodePacket .devlayer 0xFF#8 0xFF#8 0xFF#8 1#16 [0xFF#8]).wellFormed P = true
    ∧ (Instr.counts 6#7 127#7).wellFormed P = true ∧ (Instr.phaseIdle 0b1101#4).wellFormed P = true
    ∧ (Instr.typeReserved 0xFF#8).wellFormed P = true ∧ (Instr.cmdNone []).wellFormed P = true
    ∧ (Instr.portReserved .app 0x00#8).wellFormed P = true := by decide +kernel

/-- EveryStepKeepsBuffers, EveryStepKeepsRegistry, EveryStepKeepsHandoff, EveryStepRecordsAtMostOneError, OnlySendsEmit: a
dispatched command whose RECV is about to end with a decoded packet, and the engine's claim. -/
theorem test_witness_invariants :
    BuffersOk (atTransfer .rWaitFall true) ∧ RegistryOk (atTransfer .rWaitFall true)
    ∧ HandoffOk (atTransfer .rWaitFall true) ∧ ErrorsOk (atTransfer .rWaitFall true)
    ∧ csrWriteNext (atTransfer .rWaitFall true) = false ∧ powerOnNext (atTransfer .rWaitFall true) = false
    ∧ readTxNext (atTransfer .rWaitFall true) = false
    ∧ steps { atTransfer .rWaitFall true with turn := .core } = true := by
  refine ⟨?_, ?_, ?_, ?_, ?_, ?_, ?_, ?_⟩ <;> decide +kernel

theorem test_witness_invariants_claim :
    BuffersOk (atClaim initBody) ∧ RegistryOk (atClaim initBody) ∧ HandoffOk (atClaim initBody)
    ∧ got (fun t => t.eng) (step { atClaim initBody with turn := .core }) = some .claimWait := by
  refine ⟨?_, ?_, ?_, ?_⟩ <;> decide +kernel

/-- InterruptPreemptsPoll: a pending interrupt and an offered request. -/
theorem test_witness_preempt :
    pollHasStep { State.reset with irqPend := true } = false ∧ powerOnNext { State.reset with irqPend := true } = false
    ∧ steps { State.reset with irqPend := true, turn := .core, reqDev := some devDoneRequest } = true := by decide +kernel

/-- StagedMailboxIsStable. -/
theorem test_witness_mailbox :
    HandoffOk (atClaim initBody) ∧ (atClaim initBody).staged = true ∧ powerOnNext (atClaim initBody) = false
    ∧ steps (atClaim initBody) = true := by decide +kernel

/-- IdleBusStaysIdle, in both states, and with Idle vectors scheduled, by vector and by REQ. -/
theorem test_witness_idle :
    IdleBus State.reset ∧ IdleBus { State.reset with eng := .reset, turn := .core }
    ∧ IdleBus { State.reset with script := [.code .phase [0x0D#8], .run 2, .req false, .code .phase [0x01#8]] } := by
  unfold IdleBus; refine ⟨?_, ?_, ?_⟩ <;> decide +kernel

/-- PowerOnReset: a power-on entry from a busy state. -/
theorem test_witness_power_on :
    got (fun t => (t.eng, t.trState, t.prevPhase))
      (step { atTransfer .rWaitFall true with script := [.powerOn] }) = some (.idle, .idle, 0b1010#4) := by decide +kernel

/-- InitSweepAddressesTheChain: V3's two INIT cycles. -/
theorem test_witness_sweep :
    ChainOk (twoDevices 0#8 0#8 State.reset)
    ∧ (∀ i ∈ [1, 0], (devAt (twoDevices 0#8 0#8 State.reset) i).addr = 0#8)
    ∧ ((twoDevices 0#8 0#8 State.reset).chain.filter (fun i => (devAt (twoDevices 0#8 0#8 State.reset) i).active)).length = 2
    ∧ [0x81#8, 0x82#8].Nodup ∧ 0#8 ∉ [0x81#8, 0x82#8]
    ∧ (initSweep [0x81#8, 0x82#8] (twoDevices 0#8 0#8 State.reset)).map (fun r => r.1) = some [0x00#8, 0xFF#8] := by
  decide +kernel

/-- InitCycleOnTheMachine. -/
theorem test_witness_init_cycle :
    (atClaim initBody).mbLock = true ∧ 7 ≤ (atClaim initBody).mbLen
    ∧ readBytes (atClaim initBody).mb 0 21 = some initBody
    ∧ (match decodeBody P 0#8 false initBody with
      | .good rec _ => rec.opcode
      | .bad _ _ => none) = some 0x85#8
    ∧ initTarget (atClaim initBody) = some 1 ∧ reqLevel { atClaim initBody with phase := 0b1010#4 } = false := by
  decide +kernel

end Sys2Proof.Tests
end

section
/-! PROOFS. The form of an encoded packet: MAX_PAYLOAD, the sections of the stuffed payload and their places in the
body (O39). -/

namespace Sys2Proof.Machine

/-! ### MAX_PAYLOAD (00_scope.md R8, 40_codec.md R116) -/

theorem packetLen_eq (n : Nat) :
    packetLen n = 6 + 1 + 7 + n % 7 + (if n % 7 = 0 then 0 else 1) + 8 * (n / 7) + 2 + 1 := rfl

theorem largestFitting_le (bufLen n : Nat) : largestFitting bufLen n ≤ n := by
  induction n with
  | zero => exact Nat.le_refl 0
  | succ n ih =>
    unfold largestFitting
    split <;> omega

/-- When a packet of no payload fits, so does the one the search answers. -/
theorem packetLen_largestFitting_le {bufLen : Nat} (h : packetLen 0 ≤ bufLen) (n : Nat) :
    packetLen (largestFitting bufLen n) ≤ bufLen := by
  induction n with
  | zero => exact h
  | succ n ih =>
    unfold largestFitting
    split
    · assumption
    · exact ih

/-- No length up to the bound whose packet fits is above the one the search answers. -/
theorem le_largestFitting {bufLen n k : Nat} (hk : k ≤ n) (hfit : packetLen k ≤ bufLen) :
    k ≤ largestFitting bufLen n := by
  induction n with
  | zero => exact hk
  | succ n ih =>
    unfold largestFitting
    split
    · exact hk
    · next hlong =>
      have hne : k ≠ n + 1 := fun h => hlong (h ▸ hfit)
      exact ih (by omega)

/-- For a buffer that holds a packet of no payload, MAX_PAYLOAD is the largest length of R8. -/
theorem maxPayload_spec {P : Params} (h : 17 ≤ P.bufLen) :
    maxPayload P ≤ 895 ∧ packetLen (maxPayload P) ≤ P.bufLen
      ∧ ∀ n, n ≤ 895 → packetLen n ≤ P.bufLen → n ≤ maxPayload P :=
  ⟨largestFitting_le _ _, packetLen_largestFitting_le h _, fun _ hn hfit => le_largestFitting hn hfit⟩

theorem maxPayload_default : maxPayload Params.default = 514 := by
  have hbuf : Params.default.bufLen = 605 := rfl
  obtain ⟨-, hfit, hmax⟩ := maxPayload_spec (P := Params.default) (by omega)
  have hge : 514 ≤ maxPayload Params.default := hmax 514 (by omega) (by decide)
  rw [packetLen_eq, hbuf] at hfit
  split at hfit <;> omega

/-! ### The sections of the stuffed payload (40_codec.md R112, R113) -/

@[simp] theorem length_section7 (ds : List Byte) : (section7 ds).length = ds.length + 1 := by simp [section7]

theorem oddSection_eq {ds : List Byte} (h : ds ≠ []) : oddSection ds = section7 ds := if_neg h

theorem length_oddSection (ds : List Byte) :
    (oddSection ds).length = ds.length + if ds.length = 0 then 0 else 1 := by
  cases ds with
  | nil => rfl
  | cons d ds => simp [oddSection]

theorem length_groupSections {g : Nat} {ds : List Byte} (h : 7 * g ≤ ds.length) :
    (groupSections g ds).length = 8 * g := by
  induction g generalizing ds with
  | zero => rfl
  | succ g ih =>
    have hrest : (groupSections g (ds.drop 7)).length = 8 * g := ih (by rw [List.length_drop]; omega)
    simp only [groupSections, List.length_append, length_section7, List.length_take, hrest]
    omega

/-- The sections of `a + b` groups are those of the first `a` and then those of the other `b`. -/
theorem groupSections_add (a b : Nat) (ds : List Byte) :
    groupSections (a + b) ds = groupSections a ds ++ groupSections b (ds.drop (7 * a)) := by
  induction a generalizing ds with
  | zero => simp [groupSections]
  | succ a ih =>
    rw [show a + 1 + b = (a + b) + 1 by omega]
    simp only [groupSections, ih, List.append_assoc, List.drop_drop]
    rw [show 7 + 7 * a = 7 * (a + 1) by omega]

/-- Group `g` stands between the groups before it and those after it. -/
theorem groupSections_split {g groups : Nat} (h : g < groups) (ds : List Byte) :
    groupSections groups ds =
      groupSections g ds ++ section7 ((ds.drop (7 * g)).take 7)
        ++ groupSections (groups - g - 1) (ds.drop (7 * (g + 1))) := by
  calc groupSections groups ds
      = groupSections (g + 1 + (groups - g - 1)) ds := by rw [show g + 1 + (groups - g - 1) = groups by omega]
    _ = _ := by rw [groupSections_add, groupSections_add g 1]; simp only [groupSections, List.append_nil]

theorem length_stuff (data : List Byte) :
    (stuff data).length
      = data.length % 7 + (if data.length % 7 = 0 then 0 else 1) + 8 * (data.length / 7) := by
  have hodd : (data.take (data.length % 7)).length = data.length % 7 := by
    rw [List.length_take]; omega
  have hgroups : (groupSections (data.length / 7) (data.drop (data.length % 7))).length = 8 * (data.length / 7) :=
    length_groupSections (by rw [List.length_drop]; omega)
  simp only [stuff, numOdd, numGroups, List.length_append, length_oddSection, hodd, hgroups]

theorem getLsbD_0x80 (i : Nat) : (0x80#8).getLsbD i = decide (i = 7) := by
  rw [show (0x80#8 : Byte) = BitVec.twoPow 8 7 from rfl, BitVec.getLsbD_twoPow]
  simp [eq_comm]

/-- The MSB of `d`, moved to header bit `6-k`, is seen at bit `6-j` exactly when `j` is `k`. -/
theorem getLsbD_msb_shift (d : Byte) (k : Nat) {j : Nat} (hj : j < 7) :
    ((d &&& 0x80#8) >>> (k + 1)).getLsbD (6 - j) = (decide (j = k) && d.getLsbD 7) := by
  rw [BitVec.getLsbD_ushiftRight, BitVec.getLsbD_and, getLsbD_0x80]
  by_cases h : j = k
  · rw [show k + 1 + (6 - j) = 7 by omega]
    simp [h]
  · have hne : k + 1 + (6 - j) ≠ 7 := by omega
    simp [h, hne]

@[simp] theorem byteAt_cons_zero (d : Byte) (ds : List Byte) : byteAt (d :: ds) 0 = d := rfl

@[simp] theorem byteAt_cons_succ (d : Byte) (ds : List Byte) (i : Nat) : byteAt (d :: ds) (i + 1) = byteAt ds i := rfl

/-- The byte at a place after a prefix. -/
theorem byteAt_append_add (pre ds : List Byte) (i : Nat) : byteAt (pre ++ ds) (pre.length + i) = byteAt ds i := by
  unfold byteAt
  rw [List.getD_append_right _ _ _ _ (by omega), Nat.add_sub_cancel_left]

/-- A byte of the `k` bytes from index `i`, 0 beyond them. -/
theorem byteAt_take_drop (data : List Byte) (i k j : Nat) :
    byteAt ((data.drop i).take k) j = if j < k then byteAt data (i + j) else 0 := by
  unfold byteAt
  split <;> simp [*]

/-- Header bit `6-j` of the data bytes `k, k+1, …` is the MSB of byte `j`, and 0 where there is no such byte. -/
theorem getLsbD_msbBits (ds : List Byte) (k : Nat) {j : Nat} (hj : j < 7) :
    (msbBits k ds).getLsbD (6 - j) = (decide (k ≤ j) && (byteAt ds (j - k)).getLsbD 7) := by
  induction ds generalizing k with
  | nil => simp [msbBits, byteAt]
  | cons d ds ih =>
    rw [msbBits, BitVec.getLsbD_or, getLsbD_msb_shift d k hj, ih]
    obtain hlt | rfl | hgt := Nat.lt_trichotomy j k
    · simp [Nat.ne_of_lt hlt, Nat.not_le.2 hlt, Nat.not_le.2 (Nat.lt_succ_of_lt hlt)]
    · simp
    · obtain ⟨m, rfl⟩ := Nat.exists_eq_add_of_lt hgt
      rw [show k + m + 1 - k = m + 1 by omega, show k + m + 1 - (k + 1) = m by omega, byteAt_cons_succ]
      simp [show k ≤ k + m + 1 by omega, show k + m + 1 ≠ k by omega]

/-- A section of the codec, wherever it stands in the body, is the section of its data bytes. -/
theorem sectionAt_of_section7 (pre post data : List Byte) (i k : Nat) (hlen : i + k ≤ data.length) :
    SectionAt (pre ++ section7 ((data.drop i).take k) ++ post) data pre.length i k := by
  have hheader : byteAt (pre ++ section7 ((data.drop i).take k) ++ post) pre.length
      = 0x80#8 ||| msbBits 0 ((data.drop i).take k) := by
    rw [List.append_assoc]
    exact byteAt_append_add pre _ 0
  refine ⟨?_, fun j hj => ?_, fun j hj => ?_⟩
  · rw [hheader, BitVec.getLsbD_or, getLsbD_0x80]
    simp
  · rw [hheader, BitVec.getLsbD_or, getLsbD_0x80, getLsbD_msbBits _ _ hj, byteAt_take_drop]
    have hne : 6 - j ≠ 7 := by omega
    by_cases hjk : j < k <;> simp [hne, hjk]
  · have hget : i + j < data.length := by omega
    have hj' : j < ((data.drop i).take k).length := by simp; omega
    rw [List.append_assoc, show pre.length + 1 + j = pre.length + (j + 1) by omega,
      List.getElem?_append_right (by omega), Nat.add_sub_cancel_left, section7, List.cons_append,
      List.getElem?_cons_succ, List.getElem?_append_left (by simpa using hj')]
    simp [byteAt, hj, hget]

/-! ### The encoded packet (30_encoding.md R80, R90, 40_codec.md R111 to R116) -/

@[simp] theorem length_headerBytes (P : Params) (src ptype status : Byte) (n : Nat) :
    (headerBytes P src ptype status n).length = 7 := rfl

theorem encodeRaw_drop_seven (P : Params) (src ptype status : Byte) (data : List Byte) :
    (encodeRaw P src ptype status data).drop 7 = bodyOf (headerBytes P src ptype status data.length) data := rfl

theorem length_encodeRaw (P : Params) (src ptype status : Byte) (data : List Byte) :
    (encodeRaw P src ptype status data).length = packetLen data.length := by
  simp only [encodeRaw, bodyOf, trailer, syncBytes, List.length_append, List.length_cons, List.length_nil,
    length_headerBytes, length_stuff, packetLen_eq]
  omega

theorem bodyOf_take_seven {hdr : List Byte} (h : hdr.length = 7) (data : List Byte) :
    (bodyOf hdr data).take 7 = hdr := by
  rw [bodyOf, List.append_assoc, ← h, List.take_left]

/-- The trailer stands where R90 puts it. -/
theorem bodyOf_drop_groups {hdr : List Byte} (h : hdr.length = 7) (data : List Byte) :
    (bodyOf hdr data).drop (firstGroup (data.length % 7) + 8 * (data.length / 7))
      = trailer (xorBytes data ^^^ xorBytes hdr) := by
  have hlen : firstGroup (data.length % 7) + 8 * (data.length / 7) = (hdr ++ stuff data).length := by
    rw [List.length_append, length_stuff, h, firstGroup]
    split <;> omega
  rw [bodyOf, hlen, List.drop_left]

/-- The odd section stands right after the header. -/
theorem sectionAt_odd {hdr data : List Byte} (h : hdr.length = 7) (hodd : data.length % 7 ≠ 0) :
    SectionAt (bodyOf hdr data) data 7 0 (data.length % 7) := by
  have hne : data.take (data.length % 7) ≠ [] := by
    intro hnil
    have := congrArg List.length hnil
    simp only [List.length_take, List.length_nil] at this
    omega
  have hform : bodyOf hdr data
      = hdr ++ section7 ((data.drop 0).take (data.length % 7))
        ++ (groupSections (data.length / 7) (data.drop (data.length % 7))
          ++ trailer (xorBytes data ^^^ xorBytes hdr)) := by
    simp only [bodyOf, stuff, numOdd, numGroups, oddSection_eq hne, List.drop_zero, List.append_assoc]
  have hsec := sectionAt_of_section7 hdr (groupSections (data.length / 7) (data.drop (data.length % 7))
    ++ trailer (xorBytes data ^^^ xorBytes hdr)) data 0 (data.length % 7) (by omega)
  rwa [← hform, h] at hsec

/-- Group `g` stands `8 * g` bytes after `p0`. -/
theorem sectionAt_group {hdr data : List Byte} {g : Nat} (h : hdr.length = 7) (hg : g < data.length / 7) :
    SectionAt (bodyOf hdr data) data (firstGroup (data.length % 7) + 8 * g) (data.length % 7 + 7 * g) 7 := by
  have hpre : (hdr ++ oddSection (data.take (data.length % 7))
      ++ groupSections g (data.drop (data.length % 7))).length = firstGroup (data.length % 7) + 8 * g := by
    have hodd : (data.take (data.length % 7)).length = data.length % 7 := by rw [List.length_take]; omega
    have hgroups : (groupSections g (data.drop (data.length % 7))).length = 8 * g :=
      length_groupSections (by rw [List.length_drop]; omega)
    rw [List.length_append, List.length_append, h, length_oddSection, hodd, hgroups, firstGroup]
    split <;> omega
  have hsec := sectionAt_of_section7
    (hdr ++ oddSection (data.take (data.length % 7)) ++ groupSections g (data.drop (data.length % 7)))
    (groupSections (data.length / 7 - g - 1) ((data.drop (data.length % 7)).drop (7 * (g + 1)))
      ++ trailer (xorBytes data ^^^ xorBytes hdr))
    data (data.length % 7 + 7 * g) 7 (by omega)
  have hform : bodyOf hdr data
      = hdr ++ oddSection (data.take (data.length % 7)) ++ groupSections g (data.drop (data.length % 7))
        ++ section7 ((data.drop (data.length % 7 + 7 * g)).take 7)
        ++ (groupSections (data.length / 7 - g - 1) ((data.drop (data.length % 7)).drop (7 * (g + 1)))
          ++ trailer (xorBytes data ^^^ xorBytes hdr)) := by
    simp only [bodyOf, stuff, numOdd, numGroups, groupSections_split hg, ← List.drop_drop, List.append_assoc]
  rwa [← hform, hpre] at hsec

/-! ### Bit 7 of every byte after the preamble (40_codec.md R119) -/

theorem getLsbD_seven_or_0x80 (x : Byte) : (x ||| 0x80#8).getLsbD 7 = true := by
  rw [BitVec.getLsbD_or, getLsbD_0x80]
  simp

theorem getLsbD_seven_0x80_or (x : Byte) : (0x80#8 ||| x).getLsbD 7 = true := by
  rw [BitVec.or_comm]
  exact getLsbD_seven_or_0x80 x

theorem getLsbD_seven_or_0xAA (x : Byte) : (x ||| 0xAA#8).getLsbD 7 = true := by
  rw [BitVec.getLsbD_or]
  simp

theorem headerBytes_high {P : Params} {src ptype status b : Byte} {n : Nat}
    (h : b ∈ headerBytes P src ptype status n) : b.getLsbD 7 = true := by
  simp only [headerBytes, List.mem_cons, List.not_mem_nil, or_false] at h
  obtain rfl | rfl | rfl | rfl | rfl | rfl | rfl := h <;>
    simp only [getLsbD_seven_or_0x80, getLsbD_seven_0x80_or]

theorem section7_high {ds : List Byte} {b : Byte} (h : b ∈ section7 ds) : b.getLsbD 7 = true := by
  obtain rfl | h := List.mem_cons.1 h
  · exact getLsbD_seven_0x80_or _
  · obtain ⟨d, -, rfl⟩ := List.mem_map.1 h
    exact getLsbD_seven_or_0x80 d

theorem oddSection_high {ds : List Byte} {b : Byte} (h : b ∈ oddSection ds) : b.getLsbD 7 = true := by
  unfold oddSection at h
  split at h
  · cases h
  · exact section7_high h

theorem groupSections_high {g : Nat} {ds : List Byte} {b : Byte} (h : b ∈ groupSections g ds) :
    b.getLsbD 7 = true := by
  induction g generalizing ds with
  | zero => cases h
  | succ g ih =>
    obtain h | h := List.mem_append.1 h
    · exact section7_high h
    · exact ih h

theorem stuff_high {data : List Byte} {b : Byte} (h : b ∈ stuff data) : b.getLsbD 7 = true := by
  obtain h | h := List.mem_append.1 h
  · exact oddSection_high h
  · exact groupSections_high h

theorem trailer_high {c b : Byte} (h : b ∈ trailer c) : b.getLsbD 7 = true := by
  simp only [trailer, List.mem_cons, List.not_mem_nil, or_false] at h
  obtain rfl | rfl | rfl := h
  · exact getLsbD_seven_or_0xAA _
  · exact getLsbD_seven_or_0xAA _
  · rfl

theorem encodeRaw_high {P : Params} {src ptype status b : Byte} {data : List Byte}
    (h : b ∈ (encodeRaw P src ptype status data).drop 6) : b.getLsbD 7 = true := by
  obtain rfl | h := List.mem_cons.1
    (show b ∈ startByte :: bodyOf (headerBytes P src ptype status data.length) data from h)
  · rfl
  · rw [bodyOf, List.mem_append, List.mem_append] at h
    obtain (h | h) | h := h
    · exact headerBytes_high h
    · exact stuff_high h
    · exact trailer_high h

theorem encodeRaw_getLast? (P : Params) (src ptype status : Byte) (data : List Byte) :
    (encodeRaw P src ptype status data).getLast? = some 0xC8#8 := by
  simp [encodeRaw, bodyOf, trailer, endByte, List.getLast?_append, List.getLast?_cons]

/-- Settles O39. MAX_PAYLOAD is the answer of a search from the top; the packet is the preamble, the header, the stuffed
payload and the trailer in a row, so that each section's place is the length of what stands before it. -/
theorem encodedPacketForm : Obligations.EncodedPacketForm := by
  refine ⟨packetLen_eq, fun P => maxPayload_spec, maxPayload_default, fun P src ptype status data => ?_⟩
  have hlen := length_headerBytes P src ptype status data.length
  have htake := bodyOf_take_seven hlen data
  rw [encodeRaw_drop_seven]
  refine ⟨⟨htake, sectionAt_odd hlen, fun g => sectionAt_group hlen, ?_⟩, length_encodeRaw P src ptype status data,
    rfl, rfl, rfl, fun b => encodeRaw_high, encodeRaw_getLast? P src ptype status data⟩
  rw [htake]
  exact bodyOf_drop_groups hlen data

end Sys2Proof.Machine
end

section
/-! PROOFS. The class a staged command is dispatched with (O22). -/

namespace Sys2Proof.Machine

/-! ### The dispatch of one opcode (42_bus_fsm.md R210, R215) -/

/-- A decode of the staged body that gives a record hands on the record and the state with LAST_CHK written. -/
theorem withStaged_good {s : State} {b : List Byte} {rec : DecRec} {rx : Byte} (k : DecodeResult → State → Out)
    (hb : memRead s.params s.mb 0 s.mbLen = .ok b)
    (hd : decodeBody s.params s.lastChk s.lastChkV b = .good rec rx) :
    withStaged s k = k (.good rec rx) { s with lastChk := rx, lastChkV := true } := by
  simp only [withStaged, hb, orFault, runDecode, hd, DecodeResult.rx]

/-- The staged command with data `rec.data` is dispatched with the class OPCODE_CAP gives its opcode. -/
theorem dispatchCommand_good {s : State} {b data : List Byte} {rec : DecRec} {rx : Byte}
    (hb : memRead s.params s.mb 0 s.mbLen = .ok b)
    (hd : decodeBody s.params s.lastChk s.lastChkV b = .good rec rx) (hdata : rec.data = data) :
    dispatchCommand data s = dispatched rec rx (capOf s.params data.head?) s := by
  subst hdata
  rw [dispatchCommand, withStaged_good _ hb hd]
  exact if_pos rfl

theorem lookup_cons_eq_ite (k a : Byte) (c : Cap) (rows : List (Byte × Cap)) :
    ((a, c) :: rows).lookup k = if k = a then some c else rows.lookup k := by
  rw [List.lookup_cons]
  split <;> simp_all

/-- The classes of the default OPCODE_CAP (00_scope.md R21). -/
theorem capOf_default {P : Params} (h : P.opcodeCap = Params.default.opcodeCap) (op : Byte) :
    capOf P (some op) =
      if op = 0x80#8 then .status else if op = 0x81#8 then .read else if op = 0x82#8 then .write
      else if op = 0x84#8 then .control else if op = 0x86#8 then .openCap else if op = 0x87#8 then .closeCap
      else if op = 0x88#8 then .read else if op = 0x89#8 then .write else .noCap := by
  rw [capOf, h, Params.default]
  simp only [lookup_cons_eq_ite, List.lookup_nil]
  split_ifs <;> rfl

/-- Settles O22, by cases on the opcode. -/
theorem opcodesDispatchTheirClass : Obligations.OpcodesDispatchTheirClass := by
  intro s b rec rx hb hd hcap
  split
  · next op ps hdata =>
    have hrun := dispatchCommand_good hb hd hdata
    rw [List.head?_cons, capOf_default hcap] at hrun
    split_ifs at hrun ⊢ <;> subst_vars <;> exact hrun
  · next hdata => exact dispatchCommand_good hb hd hdata

end Sys2Proof.Machine
end

section
/-! PROOFS. What a step runs, and the word of the opcode table placed as the next one (O45, O46). -/

namespace Sys2Proof.Machine

/-! ### What a step runs (00_scope.md R29, 70_reset_and_hazards.md R302) -/

theorem step_code_ok {s : State} {f : Format} {bs : List Byte} {rest : List Entry} {i : Instr}
    (h : s.script = .code f bs :: rest) (hd : decode s.params f bs = .ok i) :
    step s = if enabled i { s with script := rest } = true then exec i { s with script := rest }
      else .next { s with script := rest } := by
  simp only [step, fetch, h, fetchEntry, fetchCode, hd]
  split_ifs <;> rfl

theorem step_code_error {s : State} {f : Format} {bs : List Byte} {rest : List Entry} {e : DecodeError}
    (h : s.script = .code f bs :: rest) (hd : decode s.params f bs = .error e) :
    step s = .refused (.undecodable e) := by
  simp only [step, fetch, h, fetchEntry, fetchCode, hd]

theorem isrCanStart_iff (s : State) :
    isrCanStart s = true ↔ s.irqPend = true ∧ s.trState = .idle ∧ s.isrState = .idle := by
  simp [isrCanStart, imask, and_assoc]

theorem step_timer {s : State} (h : s.script = []) (ht : s.turn = .timer) :
    step s = exec .timerTick { s with turn := .core } := by
  simp only [step, fetch, h, reference, ht]

theorem step_core {s : State} (h : s.script = []) (ht : s.turn = .core) :
    step s = exec (coreOp s) { s with turn := .timer } := by
  simp only [step, fetch, h, reference, ht]

/-- Settles O45, by cases on what the next code decodes to, and with nothing scheduled on whose turn it is. -/
theorem stepRunsTheDecodedOperation : Obligations.StepRunsTheDecodedOperation := by
  refine fun s => ⟨fun f bs rest h => ?_, fun h => ?_⟩
  · split
    · next i hd => exact step_code_ok h hd
    · next e hd => exact step_code_error h hd
  · split
    · next ht => exact step_timer h ht
    · next ht => simp only [step_core h ht, coreOp, isrCanStart_iff]

/-! ### The agent of a placed word has the step (notes/assumptions/1.md) -/

theorem prepare_script (i : Instr) (s : State) : (prepare i s).script = s.script := by cases i <;> rfl

theorem prepare_params (i : Instr) (s : State) : (prepare i s).params = s.params := by cases i <;> rfl

/-- A request of either issuer finds POLL free and no request before it. -/
theorem enabled_prepare_request (who : Issuer) (r : Request) (s : State) :
    enabled (decodeRequest who r) (prepare (decodeRequest who r) s) = true := by
  unfold decodeRequest
  cases portKind r.op <;> cases who <;> rfl

/-- HOST can always drive a phase vector. -/
theorem enabled_prepare_phase (P : Params) (p : Phase) (s : State) :
    enabled (decodePhase P p) (prepare (decodePhase P p) s) = true := by
  unfold decodePhase
  cases classify P p <;> rfl

/-- With the shim off, decode does not depend on LAST_CHK (40_codec.md R131). -/
theorem decodeBody_shim_off {P : Params} (h : P.quirkEnable = false) (c c' : Byte) (v v' : Bool) (b : List Byte) :
    decodeBody P c v b = decodeBody P c' v' b := by
  simp only [decodeBody, quirkHit, h, Bool.false_and]

/-- The mailbox after staging a payload depends on the parameters alone. -/
theorem stagePayload_mailbox_congr {s t : State} (hP : s.params = t.params) (data : List Byte) :
    (stagePayload data s).mb = (stagePayload data t).mb
      ∧ (stagePayload data s).mbLen = (stagePayload data t).mbLen := by
  simp only [stagePayload, hP, and_self]

/-- What the staged body decodes to depends, with the shim off, on the mailbox alone. -/
theorem stagedResult_congr {s t : State} (hP : s.params = t.params) (hshim : t.params.quirkEnable = false)
    (hmb : s.mb = t.mb) (hlen : s.mbLen = t.mbLen) : stagedResult s = stagedResult t := by
  simp only [stagedResult, hP, hmb, hlen, decodeBody_shim_off hshim s.lastChk t.lastChk s.lastChkV t.lastChkV]

/-- A command row's word finds its own opcode staged and the engine at its dispatch. -/
theorem commandEnabled_stageDispatch {op : Byte} (hop : op ∈ namedOpcodes) {s : State}
    (hP : s.params = Params.default) : commandEnabled [op] (stageDispatch [op] s) = true := by
  obtain ⟨hmb, hlen⟩ := stagePayload_mailbox_congr (t := State.reset) hP [op]
  have hres : stagedResult (stageDispatch [op] s) = stagedResult (stageDispatch [op] State.reset) :=
    stagedResult_congr hP rfl hmb hlen
  have hreset : ∀ op ∈ namedOpcodes, stagedIs [op] (stageDispatch [op] State.reset) = true := by decide +kernel
  have hstaged : stagedIs [op] (stageDispatch [op] s) = true := by
    rw [← hreset op hop, stagedIs, hres, stagedIs]
  rw [commandEnabled, hstaged]
  rfl

theorem stagedInit_congr {s t : State} (hP : s.params = t.params) (hlock : s.mbLock = t.mbLock) (hmb : s.mb = t.mb)
    (hlen : s.mbLen = t.mbLen) : stagedInit s = stagedInit t := by
  simp only [stagedInit, hP, hlock, hmb, hlen]

/-- INIT's word finds INIT staged, with a lock and a header, and the engine at the claim with the phase Enable. -/
theorem enabled_prepare_initCmd {s : State} (hP : s.params = Params.default) :
    enabled .initCmd (prepare .initCmd s) = true := by
  obtain ⟨hmb, hlen⟩ := stagePayload_mailbox_congr (t := State.reset) hP [0x85#8]
  have hreset : stagedInit (prepare .initCmd State.reset) = true := by decide +kernel
  have hinit : stagedInit (prepare .initCmd s) = true :=
    (stagedInit_congr (s := prepare .initCmd s) (t := prepare .initCmd State.reset) hP rfl hmb hlen).trans hreset
  have hphase : phaseClass (prepare .initCmd s) = .enable := by
    show classify s.params (s.params.enableSet.headD 0) = .enable
    rw [hP]
    rfl
  simp only [enabled, hinit, hphase]
  rfl

/-- A command row's operation, INIT's or another's, is the agent's step where its word is placed. -/
theorem enabled_prepare_command {op : Byte} (hop : op ∈ namedOpcodes) {s : State} (hP : s.params = Params.default) :
    enabled (decodeCommand [op]) (prepare (decodeCommand [op]) s) = true := by
  have hrow := commandEnabled_stageDispatch hop hP
  simp only [namedOpcodes, List.mem_cons, List.not_mem_nil, or_false] at hop
  obtain rfl | rfl | rfl | rfl | rfl | rfl | rfl | rfl | rfl := hop
  · exact enabled_prepare_initCmd hP
  all_goals exact hrow

/-! ### Words of the opcode table -/

/-- An ENG code that no port op shadows. -/
theorem engCode_not_portOp (b : Byte) (hport : portOps.contains b ≠ true) (hle : b.toNat ≤ 7) :
    b = 0x00#8 ∨ b = 0x06#8 ∨ b = 0x07#8 := by
  revert b
  decide

/-- The code spaces a bare word is read in, with what its first byte then is. -/
theorem tableFormat_cases (nbits w : Nat) :
    (∃ who, tableFormat nbits w = .port who) ∨ tableFormat nbits w = .frame .sync
      ∨ tableFormat nbits w = .frame .start ∨ tableFormat nbits w = .frame .endMark
      ∨ tableFormat nbits w = .frame .chk1
      ∨ (tableFormat nbits w = .cmdOpcode ∧ wordByte w 0 ∈ namedOpcodes) ∨ tableFormat nbits w = .phase
      ∨ (tableFormat nbits w = .engStep
        ∧ (wordByte w 0 = 0x00#8 ∨ wordByte w 0 = 0x06#8 ∨ wordByte w 0 = 0x07#8)) := by
  simp only [tableFormat]
  split_ifs with hport hwho hsync hcmd hstart hend hchk hphase heng <;> simp_all [engCode_not_portOp]

theorem eq_of_ite_ok {c : Prop} [Decidable c] {e : DecodeError} {i j : Instr}
    (h : (if c then .ok j else .error e : Except DecodeError Instr) = .ok i) : j = i := by
  split at h
  · exact Except.ok.inj h
  · cases h

theorem decodeTableWord_eq_some {nbits w : Nat} {i : Instr} (h : decodeTableWord nbits w = some i) :
    decode Params.default (tableFormat nbits w) (tableBytes nbits w) = .ok i := by
  unfold decodeTableWord at h
  split at h
  · next hd => cases h; exact hd
  · cases h

/-- Whatever row a word is read as, `prepare` leaves its agent with the step. -/
theorem enabled_prepare_tableWord {s : State} {nbits w : Nat} {i : Instr} (hP : s.params = Params.default)
    (h : decodeTableWord nbits w = some i) : enabled i (prepare i s) = true := by
  have hd := decodeTableWord_eq_some h
  obtain ⟨who, hf⟩ | hf | hf | hf | hf | ⟨hf, hop⟩ | hf | ⟨hf, heng⟩ := tableFormat_cases nbits w
  · rw [hf, decode] at hd
    split at hd
    · cases hd; exact enabled_prepare_request who _ s
    · cases hd
  · simp only [hf, decode, decodeFrame_sync] at hd
    obtain rfl := eq_of_ite_ok hd
    rfl
  · simp only [hf, decode, decodeFrame_start] at hd
    obtain rfl := eq_of_ite_ok hd
    rfl
  · simp only [hf, decode, decodeFrame_endMark] at hd
    obtain rfl := eq_of_ite_ok hd
    rfl
  · simp only [tableBytes, hf, decode, decodeFrame_chk1] at hd
    obtain rfl := eq_of_ite_ok hd
    rfl
  · simp only [tableBytes, hf, decode] at hd
    cases hd
    exact enabled_prepare_command hop hP
  · simp only [tableBytes, hf, decode, oneByte_single] at hd
    obtain rfl := eq_of_ite_ok hd
    exact enabled_prepare_phase _ _ s
  · simp only [tableBytes, hf, decode, oneByte_single] at hd
    obtain hb | hb | hb := heng <;> rw [hb] at hd <;> cases hd <;> rfl

/-- Settles O46: the word's entry is fetched and decoded, its agent has the step, and what is left of the schedule is
the one `prepare` found. -/
theorem fetchWordRunsNext : Obligations.FetchWordRunsNext := by
  intro s nbits w i hP h
  have hword : s.withFetchWord nbits w
      = { prepare i s with script := .code (tableFormat nbits w) (tableBytes nbits w) :: s.script } := by
    simp only [State.withFetchWord, h]
  have hd : decode (s.withFetchWord nbits w).params (tableFormat nbits w) (tableBytes nbits w) = .ok i := by
    rw [hword, prepare_params, hP]
    exact decodeTableWord_eq_some h
  have hscript : (s.withFetchWord nbits w).script = .code (tableFormat nbits w) (tableBytes nbits w) :: s.script := by
    rw [hword]
  have hrest : { s.withFetchWord nbits w with script := s.script } = prepare i s := by
    rw [hword, ← prepare_script i s]
  rw [step_code_ok hscript hd, hrest, if_pos (enabled_prepare_tableWord hP h)]

end Sys2Proof.Machine
end


section
/-! PROOFS. Every step keeps the chain invariant (O51): what an outcome leads to, what a step is, the rules of the
device table and the chain, and then the operations, agent by agent. -/

namespace Sys2Proof.Machine

/-! ### What an outcome leads to -/

/-- The outcome's next state, if there is one, has the property. -/
def Leads (p : State → Prop) (o : Out) : Prop := ∀ t, o = .next t → p t

@[simp] theorem leads_next {p : State → Prop} {t : State} : Leads p (.next t) ↔ p t :=
  ⟨fun h => h t rfl, fun h _ he => Host.Outcome.next.inj he ▸ h⟩

@[simp] theorem leads_refused (p : State → Prop) (r : Refusal) : Leads p (.refused r) := fun _ he => nomatch he

theorem leads_orFault {α : Type} {p : State → Prop} {r : Except Fault α} {k : α → Out}
    (h : ∀ a, r = .ok a → Leads p (k a)) : Leads p (orFault r k) := by
  intro t ht
  obtain ⟨a, ha, hk⟩ := orFault_next ht
  exact h a ha t hk

theorem Leads.mono {p q : State → Prop} {o : Out} (h : Leads p o) (hpq : ∀ t, p t → q t) : Leads q o :=
  fun t ht => hpq t (h t ht)

/-! ### What a step is (00_scope.md R29) -/

/-- An action of HOST, of an issuer or of the tester, and a step that nobody takes: pins, line, port requests, what a
CSR access changes, and the schedule's own fields; no register of the block but ERR_FLAGS. -/
def EnvironmentStep (s t : State) : Prop :=
  t = { s with
    phase := t.phase, reqPin := t.reqPin, hostLine := t.hostLine, samples := t.samples, txBits := t.txBits,
    reqApp := t.reqApp, reqDev := t.reqDev, csrOut := t.csrOut, errFlags := t.errFlags, script := t.script,
    hostTimeouts := t.hostTimeouts, txChecked := t.txChecked, expectFailed := t.expectFailed }

/-- The schedule gives the next step to `i`, whose agent has it, in a state that differs in the schedule alone. -/
def Scheduled (s : State) (i : Instr) (s' : State) : Prop :=
  s' = { s with script := s'.script, turn := s'.turn } ∧ enabled i s' = true

theorem coreOp_enabled (s : State) : enabled (coreOp s) s = true := by
  unfold coreOp
  split_ifs with hwait hstart
  · simp [enabled, hwait]
  · exact hstart
  · have hidle : s.isrState = .idle := by cases h : s.isrState <;> simp_all
    simp [enabled, pollHasStep, hidle, hstart]

/-- What is fetched in `s` is an operation of an agent that has the step, or an action of the environment. -/
def Fetched.Lawful (s : State) : Fetched → Prop
  | .run i s' => Scheduled s i s'
  | .done o => Leads (EnvironmentStep s) o

theorem reference_lawful (s : State) : (reference s).Lawful s := by
  unfold reference
  split
  · exact ⟨rfl, rfl⟩
  · exact ⟨rfl, coreOp_enabled _⟩

/-- A verb that keeps its place in the schedule runs the reference schedule's step. -/
theorem reference_lawful_of_script (es : List Entry) (s : State) :
    (reference { s with script := es }).Lawful s := by
  unfold reference
  split
  · exact ⟨rfl, rfl⟩
  · exact ⟨rfl, coreOp_enabled _⟩

theorem fetchCode_lawful (f : Format) (bs : List Byte) (s : State) : (fetchCode f bs s).Lawful s := by
  unfold fetchCode
  split
  · exact leads_refused _ _
  · split
    · next i _ hen => exact ⟨rfl, hen⟩
    · exact leads_next.2 rfl

theorem csrRead_environment (addr width : Nat) (s : State) : Leads (EnvironmentStep s) (csrRead addr width s) :=
  leads_orFault fun _ _ => leads_next.2 rfl

theorem csrWrite_environment (addr width : Nat) (v : Word32) (s : State) :
    Leads (EnvironmentStep s) (csrWrite addr width v s) := by
  refine leads_orFault fun off _ => ?_
  split <;> exact leads_next.2 rfl

theorem driveReq_environment (v : Bool) (s : State) : EnvironmentStep s (driveReq v s) := by
  unfold driveReq
  split <;> rfl

theorem offer_environment (who : Issuer) (r : Request) (s : State) : EnvironmentStep s (offer who r s) := by
  unfold offer
  split
  · rfl
  · cases who <;> rfl

/-- Every entry of the schedule but a power-on reset. -/
theorem fetchEntry_lawful {e : Entry} (he : e ≠ .powerOn) (s : State) : (fetchEntry e s).Lawful s := by
  cases e with
  | code f bs => exact fetchCode_lawful f bs s
  | req v => exact leads_next.2 (driveReq_environment v s)
  | line bytes => exact leads_next.2 rfl
  | samples xs => exact leads_next.2 rfl
  | readTx k => exact leads_next.2 rfl
  | offer who r => exact leads_next.2 (offer_environment who r s)
  | csrRead who addr width =>
    simp only [fetchEntry]
    split
    · exact leads_next.2 rfl
    · exact csrRead_environment addr width s
  | csrWrite who addr width v =>
    simp only [fetchEntry]
    split
    · exact leads_next.2 rfl
    · exact csrWrite_environment addr width v s
  | powerOn => exact absurd rfl he
  | run k =>
    simp only [fetchEntry]
    split
    · exact leads_next.2 rfl
    · exact reference_lawful_of_script _ s
  | runUntil c b =>
    simp only [fetchEntry]
    split_ifs
    · exact leads_next.2 rfl
    · exact leads_next.2 rfl
    · exact reference_lawful_of_script _ s
  | await who =>
    simp only [fetchEntry]
    split
    · exact leads_next.2 rfl
    · exact reference_lawful_of_script _ s
  | expectTx bytes => exact leads_next.2 rfl

/-- What one step can be: a power-on reset, an action of the environment, or an operation whose agent has the step. -/
theorem step_cases {s t : State} (h : step s = .next t) :
    (∃ rest, s.script = .powerOn :: rest ∧ t = powerOnReset { s with script := rest })
      ∨ EnvironmentStep s t ∨ ∃ i s', Scheduled s i s' ∧ exec i s' = .next t := by
  have of_lawful : ∀ f : Fetched, fetch s = f → f.Lawful s →
      EnvironmentStep s t ∨ ∃ i s', Scheduled s i s' ∧ exec i s' = .next t := by
    intro f hf hlaw
    unfold step at h
    cases f with
    | run i s' => rw [hf] at h; exact .inr ⟨i, s', hlaw, h⟩
    | done o => rw [hf] at h; exact .inl (hlaw t h)
  cases hscript : s.script with
  | nil => exact .inr (of_lawful (reference s) (by rw [fetch, hscript]) (reference_lawful s))
  | cons e rest =>
    have hfetch : fetch s = fetchEntry e { s with script := rest } := by rw [fetch, hscript]
    by_cases he : e = .powerOn
    · subst he
      rw [step, hfetch] at h
      cases h
      exact .inl ⟨rest, rfl, rfl⟩
    · refine .inr (of_lawful _ hfetch ?_)
      have hlaw := fetchEntry_lawful he { s with script := rest }
      generalize fetchEntry e { s with script := rest } = f at hlaw ⊢
      cases f with
      | run i s' => exact hlaw
      | done o => exact hlaw

/-! ### The device table and the chain (10_state.md R41, R42) -/

theorem devAt_setDev (i j : Nat) (d : Device) (s : State) :
    devAt (setDev i d s) j = if j = i ∧ i < s.dev.length then d else devAt s j := by
  simp only [devAt, setDev_dev, List.getD_eq_getElem?_getD, List.getElem?_set]
  by_cases hij : j = i
  · subst hij
    by_cases hlt : j < s.dev.length <;> simp [hlt]
  · simp [hij, Ne.symm hij]

theorem devAt_setDev_same {i : Nat} {s : State} (h : i < s.dev.length) (d : Device) : devAt (setDev i d s) i = d := by
  rw [devAt_setDev, if_pos ⟨rfl, h⟩]

theorem devAt_setDev_other {i j : Nat} (h : j ≠ i) (d : Device) (s : State) :
    devAt (setDev i d s) j = devAt s j := by
  rw [devAt_setDev, if_neg fun hc => h hc.1]

/-- A bus reset takes every address and leaves the rest of every slot. -/
theorem devAt_resetBus (s : State) (i : Nat) : devAt (resetBus s) i = { devAt s i with addr := 0 } := by
  simp only [devAt, resetBus, List.getD_eq_getElem?_getD, List.getElem?_map]
  cases s.dev[i]? <;> rfl

theorem devAt_powerOn (P : Params) (p : Phase) (q : Bool) (i : Nat) :
    devAt (State.powerOn P p q) i = Device.empty := by
  simp only [devAt, State.powerOn, List.getD_eq_getElem?_getD, List.getElem?_replicate]
  split <;> rfl

theorem ChainOk.congr {s t : State} (h : ChainOk s) (hP : t.params = s.params) (hdev : t.dev = s.dev)
    (hchain : t.chain = s.chain) : ChainOk t := by
  simpa only [ChainOk, devAt, hP, hdev, hchain] using h

/-- Rewriting the device of a slot in the chain by a present one keeps the chain invariant. -/
theorem ChainOk.setDev {s : State} (h : ChainOk s) {i : Nat} {d : Device} (hi : i ∈ s.chain)
    (hd : d.present = true) : ChainOk (setDev i d s) := by
  obtain ⟨hlen, hnodup, hlisted, hpresent, habsent⟩ := h
  have hlt : i < s.dev.length := hlen ▸ (hlisted i hi).1
  refine ⟨by simpa using hlen, hnodup, fun j hj => ⟨(hlisted j hj).1, ?_⟩, fun j hj hp => ?_, fun j hj hp => ?_⟩
  all_goals by_cases hji : j = i
  · rw [hji, devAt_setDev_same hlt, hd]
  · rw [devAt_setDev_other hji, (hlisted j hj).2]
  · exact hji ▸ hi
  · exact hpresent j hj (by rwa [devAt_setDev_other hji] at hp)
  · rw [hji, devAt_setDev_same hlt, hd] at hp
    cases hp
  · rw [devAt_setDev_other hji] at hp ⊢
    exact habsent j hj hp

/-- A slot without a device takes a new one, which goes to the front of the chain. -/
theorem ChainOk.link {s t : State} (h : ChainOk s) {i : Nat} {d : Device} (hi : i < s.params.maxDevices)
    (hfree : (devAt s i).present = false) (hd : d.present = true) (hP : t.params = s.params)
    (hdev : t.dev = (Machine.setDev i d s).dev) (hchain : t.chain = i :: s.chain) : ChainOk t := by
  obtain ⟨hlen, hnodup, hlisted, hpresent, habsent⟩ := h
  have hnew : i ∉ s.chain := fun hmem => by simp [(hlisted i hmem).2] at hfree
  have hsame : devAt t i = d := by
    rw [devAt, hdev]; exact devAt_setDev_same (hlen ▸ hi) d
  have hother : ∀ {j}, j ≠ i → devAt t j = devAt s j := fun hji => by
    rw [devAt, hdev]; exact devAt_setDev_other hji d s
  refine ⟨by simp [hdev, hP, hlen], by simp [hchain, hnew, hnodup], fun j hj => ?_, fun j hj hp => ?_,
    fun j hj hp => ?_⟩
  all_goals rw [hP] at *
  all_goals by_cases hji : j = i
  · exact ⟨hji ▸ hi, by rw [hji, hsame, hd]⟩
  · rw [hchain, List.mem_cons, or_iff_right hji] at hj
    exact ⟨(hlisted j hj).1, by rw [hother hji, (hlisted j hj).2]⟩
  · simp [hchain, hji]
  · rw [hother hji] at hp
    simp [hchain, hpresent j hj hp]
  · rw [hji, hsame, hd] at hp
    cases hp
  · rw [hother hji] at hp ⊢
    exact habsent j hj hp

/-- A slot that gives up its device leaves the chain. -/
theorem ChainOk.unlink {s t : State} (h : ChainOk s) {i : Nat} (hi : i < s.params.maxDevices)
    (hP : t.params = s.params) (hdev : t.dev = (Machine.setDev i Device.empty s).dev)
    (hchain : t.chain = s.chain.filter (fun j => j != i)) : ChainOk t := by
  obtain ⟨hlen, hnodup, hlisted, hpresent, habsent⟩ := h
  have hsame : devAt t i = Device.empty := by
    rw [devAt, hdev]; exact devAt_setDev_same (hlen ▸ hi) _
  have hother : ∀ {j}, j ≠ i → devAt t j = devAt s j := fun hji => by
    rw [devAt, hdev]; exact devAt_setDev_other hji _ s
  have hmem : ∀ {j}, j ∈ t.chain ↔ j ∈ s.chain ∧ j ≠ i := by simp [hchain]
  refine ⟨by simp [hdev, hP, hlen], hchain ▸ hnodup.filter _, fun j hj => ?_, fun j hj hp => ?_, fun j hj hp => ?_⟩
  all_goals rw [hP] at *
  · obtain ⟨hj, hji⟩ := hmem.1 hj
    exact ⟨(hlisted j hj).1, by rw [hother hji, (hlisted j hj).2]⟩
  all_goals by_cases hji : j = i
  · rw [hji, hsame] at hp
    cases hp
  · rw [hother hji] at hp
    exact hmem.2 ⟨hpresent j hj hp, hji⟩
  · rw [hji, hsame]
    exact ⟨rfl, rfl⟩
  · rw [hother hji] at hp ⊢
    exact habsent j hj hp

theorem ChainOk.resetBus {s : State} (h : ChainOk s) : ChainOk (resetBus s) := by
  obtain ⟨hlen, hnodup, hlisted, hpresent, habsent⟩ := h
  refine ⟨by simpa [Machine.resetBus] using hlen, hnodup, fun j hj => ?_, fun j hj hp => ?_, fun j hj hp => ?_⟩
  all_goals rw [devAt_resetBus] at *
  · exact hlisted j hj
  · exact hpresent j hj hp
  · exact ⟨(habsent j hj hp).1, rfl⟩

theorem chainOk_powerOn (P : Params) (p : Phase) (q : Bool) : ChainOk (State.powerOn P p q) := by
  refine ⟨List.length_replicate, List.nodup_nil, fun i hi => ?_, fun i _ hp => ?_, fun i _ _ => ?_⟩
  · cases hi
  · rw [devAt_powerOn] at hp
    cases hp
  · rw [devAt_powerOn]
    exact ⟨rfl, rfl⟩

/-! ### The slots of a command in flight (43_registry.md R245) -/

/-- With no command in flight the slots name nothing. -/
theorem ChainOk.registryOk {s : State} (h : ChainOk s) (he : inFlight s.eng = false) : RegistryOk s := by
  refine ⟨h, fun hf => ?_, fun hd => ?_⟩
  · simp [he] at hf
  · simp [hd, inFlight] at he

theorem registryOk_powerOn (P : Params) (p : Phase) (q : Bool) : RegistryOk (State.powerOn P p q) :=
  (chainOk_powerOn P p q).registryOk rfl

theorem RegistryOk.curSlot_mem {s : State} (h : RegistryOk s) (he : inFlight s.eng = true) : s.curSlot ∈ s.chain := by
  obtain ⟨-, hcur, -⟩ := h
  exact hcur he

/-- Everything the invariant speaks of is as it was. -/
def SameRegistry (s t : State) : Prop :=
  t.params = s.params ∧ t.dev = s.dev ∧ t.chain = s.chain ∧ t.eng = s.eng ∧ t.curSlot = s.curSlot
    ∧ t.dispSlot = s.dispSlot

theorem SameRegistry.trans {s t u : State} (h : SameRegistry s t) (h' : SameRegistry t u) : SameRegistry s u := by
  simp_all [SameRegistry]

theorem SameRegistry.chainOk {s t : State} (hs : SameRegistry s t) (h : ChainOk s) : ChainOk t := by
  obtain ⟨hP, hdev, hchain, -⟩ := hs
  exact h.congr hP hdev hchain

theorem SameRegistry.registryOk {s t : State} (hs : SameRegistry s t) (h : RegistryOk s) : RegistryOk t := by
  refine ⟨hs.chainOk h.1, ?_⟩
  obtain ⟨-, -, hchain, heng, hcur, hdisp⟩ := hs
  rw [hchain, heng, hcur, hdisp]
  exact h.2

theorem Leads.registryOk {s : State} {o : Out} (hs : Leads (SameRegistry s) o) (h : RegistryOk s) :
    Leads RegistryOk o :=
  hs.mono fun _ ht => ht.registryOk h

theorem RegistryOk.deliver {s : State} (h : RegistryOk s) (who : Issuer) (r : Reply) :
    RegistryOk (deliver who r s) := by
  have hs : SameRegistry s (Machine.deliver who r s) := by simp [SameRegistry]
  exact hs.registryOk h

theorem sameRegistry_refuse (who : Issuer) (s : State) : SameRegistry s (refuse who s) := by simp [SameRegistry]

theorem sameRegistry_failRequest (who : Issuer) (e : Err) (s : State) : SameRegistry s (failRequest who e s) := by
  simp [SameRegistry]

theorem sameRegistry_endTransfer (res : TrResult) (rep : Reply) (s : State) :
    SameRegistry s (endTransfer res rep s) := by
  simp [SameRegistry]

theorem sameRegistry_timeoutTransfer (res : TrResult) (e : Err) (s : State) :
    SameRegistry s (timeoutTransfer res e s) := by
  simp [SameRegistry]

theorem sameRegistry_capture (n : Nat) (s : State) : SameRegistry s (capture n s).2 := by
  rw [capture_state]
  exact ⟨rfl, rfl, rfl, rfl, rfl, rfl⟩

theorem sameRegistry_runDecode (b : List Byte) (s : State) : SameRegistry s (runDecode b s).2 := by
  rw [runDecode_state]
  exact ⟨rfl, rfl, rfl, rfl, rfl, rfl⟩

theorem sameRegistry_of_runDecode {b : List Byte} {s t : State} {d : DecodeResult} (h : runDecode b s = (d, t)) :
    SameRegistry s t := by
  have hs := sameRegistry_runDecode b s
  rwa [h] at hs

theorem sameRegistry_startSend {raw : List Byte} {s t : State} (h : startSend raw s = .ok t) : SameRegistry s t := by
  obtain ⟨-, rfl⟩ := startSend_ok h
  exact ⟨rfl, rfl, rfl, rfl, rfl, rfl⟩

theorem sameRegistry_takeRequest {s t : State} {who : Issuer} {r : Request}
    (h : takeRequest s = some (who, r, t)) : SameRegistry s t := by
  obtain ⟨-, -, ht⟩ | ⟨-, -, ht⟩ := takeRequest_some h <;> rw [ht] <;> exact ⟨rfl, rfl, rfl, rfl, rfl, rfl⟩

theorem sameRegistry_environment {s t : State} (h : EnvironmentStep s t) : SameRegistry s t := by
  rw [h]
  exact ⟨rfl, rfl, rfl, rfl, rfl, rfl⟩

/-! ### The transport and the codec leave the registry -/

theorem execEncodePacket_sameRegistry (who : Issuer) (src ptype status : Byte) (n : BitVec 16) (data : List Byte)
    (s : State) : Leads (SameRegistry s) (execEncodePacket who src ptype status n data s) := by
  unfold execEncodePacket
  split_ifs <;> simp [SameRegistry]

theorem execDecodePacket_sameRegistry (who : Issuer) (n : BitVec 16) (data : List Byte) (s : State) :
    Leads (SameRegistry s) (execDecodePacket who n data s) := by
  unfold execDecodePacket
  split
  · exact leads_next.2 (sameRegistry_refuse who s)
  · split
    · next hrun => exact leads_next.2 ((sameRegistry_of_runDecode hrun).trans (by simp [SameRegistry]))
    · next hrun => exact leads_next.2 ((sameRegistry_of_runDecode hrun).trans (by simp [SameRegistry]))

theorem execSendReply_sameRegistry (who : Issuer) (ptype status : Byte) (n : BitVec 16) (data : List Byte)
    (s : State) : Leads (SameRegistry s) (execSendReply who ptype status n data s) := by
  unfold execSendReply
  split_ifs
  · exact leads_next.2 (sameRegistry_refuse who s)
  · simp [SameRegistry]
  · refine leads_orFault fun t ht => ?_
    have hsend := sameRegistry_startSend ht
    exact leads_next.2 hsend

theorem execRecvData_sameRegistry (who : Issuer) (n : BitVec 16) (s : State) :
    Leads (SameRegistry s) (execRecvData who n s) := by
  unfold execRecvData
  split_ifs
  · exact leads_next.2 (sameRegistry_refuse who s)
  · simp [SameRegistry]

theorem execSWaitRise_sameRegistry (s : State) : Leads (SameRegistry s) (execSWaitRise s) := by
  unfold execSWaitRise
  split
  · simp [SameRegistry]
  · exact leads_next.2 (sameRegistry_timeoutTransfer _ _ s)
  · exact leads_orFault fun raw _ => by simp [SameRegistry]

theorem execSWaitFall_sameRegistry (s : State) : Leads (SameRegistry s) (execSWaitFall s) := by
  unfold execSWaitFall
  split
  · simp [SameRegistry]
  · exact leads_next.2 (sameRegistry_timeoutTransfer _ _ s)
  · exact leads_next.2 (sameRegistry_endTransfer _ _ s)

theorem execRWaitRise_sameRegistry (s : State) : Leads (SameRegistry s) (execRWaitRise s) := by
  unfold execRWaitRise
  split
  · simp [SameRegistry]
  · exact leads_next.2 (sameRegistry_timeoutTransfer _ _ s)
  · exact leads_orFault fun m _ => leads_next.2 (sameRegistry_capture _ s)

theorem execRWaitFall_sameRegistry (s : State) : Leads (SameRegistry s) (execRWaitFall s) := by
  unfold execRWaitFall
  split
  · simp [SameRegistry]
  · exact leads_next.2 (sameRegistry_timeoutTransfer _ _ s)
  · split
    · simp [SameRegistry]
    · refine leads_orFault fun b _ => ?_
      split
      · next hrun => exact leads_next.2 ((sameRegistry_of_runDecode hrun).trans (sameRegistry_endTransfer _ _ _))
      · next hrun => exact leads_next.2 ((sameRegistry_of_runDecode hrun).trans (by simp [SameRegistry]))

theorem execDeviceByAddr_sameRegistry (who : Issuer) (addr : Byte) (s : State) :
    Leads (SameRegistry s) (execDeviceByAddr who addr s) := by
  unfold execDeviceByAddr
  split
  · exact leads_next.2 (sameRegistry_refuse who s)
  · simp [SameRegistry]

/-! ### The interrupt and the timer leave the registry -/

theorem execIsrStart_sameRegistry (s : State) : Leads (SameRegistry s) (execIsrStart s) := by
  refine leads_next.2 ?_
  obtain h | h := takeInterrupt_cases s <;> rw [h] <;> exact ⟨rfl, rfl, rfl, rfl, rfl, rfl⟩

theorem stageCommand_sameRegistry (s : State) : Leads (SameRegistry s) (stageCommand s) :=
  leads_orFault fun _ _ => leads_next.2 (sameRegistry_capture _ s)

theorem execIWaitRise_sameRegistry (s : State) : Leads (SameRegistry s) (execIWaitRise s) := by
  unfold execIWaitRise
  split
  · exact stageCommand_sameRegistry s
  · simp [SameRegistry]
  · simp [SameRegistry]

/-! ### The registry's requests (43_registry.md R240 to R243) -/

theorem not_inFlight_of_noCommand {e : Eng} (h : noCommand e = true) : inFlight e = false := by
  cases e <;> cases h <;> rfl

/-- A registry request that is not refused finds no command in flight, and its slot is one of the table's. -/
theorem admitsRegistry_of_not_refused {who : Issuer} {slot : Byte} {s : State}
    (h : ¬(!admitsRegistry who s || decide (s.params.maxDevices ≤ slot.toNat)) = true) :
    inFlight s.eng = false ∧ slot.toNat < s.params.maxDevices := by
  simp only [admitsRegistry, Bool.or_eq_true, Bool.not_eq_true', Bool.and_eq_false_iff, decide_eq_true_eq, not_or,
    Bool.not_eq_false, Nat.not_le] at h
  obtain ⟨⟨-, hnone⟩, hslot⟩ := h
  exact ⟨not_inFlight_of_noCommand hnone, hslot⟩

theorem execAddDevice_registryOk {s : State} (h : RegistryOk s) (who : Issuer) (slot dtype : Byte) :
    Leads RegistryOk (execAddDevice who slot dtype s) := by
  unfold execAddDevice
  split_ifs with hrefused hbusy
  · exact leads_next.2 ((sameRegistry_refuse who s).registryOk h)
  · exact leads_next.2 ((sameRegistry_failRequest who _ s).registryOk h)
  · obtain ⟨hnone, hslot⟩ := admitsRegistry_of_not_refused hrefused
    refine leads_next.2 (RegistryOk.deliver ?_ _ _)
    refine ChainOk.registryOk ?_ hnone
    exact h.1.link hslot (by simpa using hbusy) rfl rfl rfl rfl

theorem execRemoveDevice_registryOk {s : State} (h : RegistryOk s) (who : Issuer) (slot : Byte) :
    Leads RegistryOk (execRemoveDevice who slot s) := by
  unfold execRemoveDevice
  split_ifs with hrefused hempty
  · exact leads_next.2 ((sameRegistry_refuse who s).registryOk h)
  · exact leads_next.2 ((sameRegistry_failRequest who _ s).registryOk h)
  · obtain ⟨hnone, hslot⟩ := admitsRegistry_of_not_refused hrefused
    refine leads_next.2 (RegistryOk.deliver ?_ _ _)
    refine ChainOk.registryOk ?_ hnone
    exact h.1.unlink hslot rfl rfl rfl

theorem RegistryOk.present {s : State} (h : RegistryOk s) {i : Nat} (hi : i ∈ s.chain) :
    (devAt s i).present = true := by
  obtain ⟨⟨-, -, hlisted, -⟩, -⟩ := h
  exact (hlisted i hi).2

/-- Switching a device of the chain on or off keeps the chain and moves no slot of a command. -/
theorem RegistryOk.setActive {s : State} (h : RegistryOk s) {i : Nat} (hi : i ∈ s.chain) (b : Bool) :
    RegistryOk (setDev i { devAt s i with active := b } s) :=
  ⟨h.1.setDev hi (h.present hi), h.2⟩

theorem slotByAddr_some {addr : Byte} {s : State} {i : Nat} (h : slotByAddr addr s = some i) : i ∈ s.chain := by
  unfold slotByAddr at h
  split at h
  · cases h
  · exact (firstInChain_some h).1

theorem execSetActive_registryOk {s : State} (h : RegistryOk s) (who : Issuer) (addr v : Byte) :
    Leads RegistryOk (execSetActive who addr v s) := by
  unfold execSetActive
  split
  · exact leads_next.2 ((sameRegistry_refuse who s).registryOk h)
  · split
    · exact leads_next.2 ((sameRegistry_failRequest who _ s).registryOk h)
    · next i hslot => exact leads_next.2 ((h.setActive (slotByAddr_some hslot) _).deliver _ _)

theorem execSetActiveSlot_registryOk {s : State} (h : RegistryOk s) (who : Issuer) (slot v : Byte) :
    Leads RegistryOk (execSetActiveSlot who slot v s) := by
  unfold execSetActiveSlot
  split_ifs with hrefused hempty
  · exact leads_next.2 ((sameRegistry_refuse who s).registryOk h)
  · exact leads_next.2 ((sameRegistry_failRequest who _ s).registryOk h)
  · have hslot : slot.toNat < s.params.maxDevices := by
      simp only [Bool.or_eq_true, decide_eq_true_eq, not_or] at hrefused
      omega
    obtain ⟨-, -, -, hpresent, -⟩ := h.1
    have hi := hpresent _ hslot (by simpa using hempty)
    exact leads_next.2 ((h.setActive hi _).deliver _ _)

/-! ### The engine (42_bus_fsm.md R193 to R217) -/

theorem execBusReset_registryOk {s : State} (h : RegistryOk s) : Leads RegistryOk (execBusReset s) :=
  leads_next.2 (h.1.resetBus.registryOk rfl)

theorem execEIdle_registryOk {s : State} (h : RegistryOk s) : Leads RegistryOk (execEIdle s) := by
  unfold execEIdle
  split
  · exact execBusReset_registryOk h
  · exact leads_next.2 (ChainOk.registryOk (h.1.congr rfl rfl rfl) rfl)
  · exact leads_next.2 h

theorem execEReset_registryOk {s : State} (h : RegistryOk s) : Leads RegistryOk (execEReset s) := by
  unfold execEReset
  split
  · exact leads_next.2 h
  · exact leads_next.2 (ChainOk.registryOk (h.1.congr rfl rfl rfl) rfl)
  · exact leads_next.2 (ChainOk.registryOk (h.1.congr rfl rfl rfl) rfl)

theorem dropCommand_registryOk {s : State} (h : ChainOk s) (e : Err) : RegistryOk (dropCommand e s) :=
  ChainOk.registryOk (h.congr rfl rfl rfl) rfl

/-- A claim's target is in the chain. -/
theorem claimAs_registryOk {s : State} (h : ChainOk s) (kind : CurKind) {target : Option Nat}
    (htarget : ∀ i, target = some i → i ∈ s.chain) : RegistryOk (claimAs kind target s) := by
  cases target with
  | none => exact ChainOk.registryOk (h.congr rfl rfl rfl) rfl
  | some i => exact ⟨h.congr rfl rfl rfl, fun _ => htarget i rfl, nofun⟩

theorem execInitCmd_registryOk {s : State} (h : RegistryOk s) : Leads RegistryOk (execInitCmd s) :=
  leads_next.2 (claimAs_registryOk h.1 _ fun _ hi => (firstInChain_some hi).1)

theorem claimStaged_registryOk {s : State} (h : RegistryOk s) : Leads RegistryOk (claimStaged s) := by
  unfold claimStaged
  split_ifs
  · exact leads_next.2 (dropCommand_registryOk h.1 _)
  · exact leads_next.2 (dropCommand_registryOk h.1 _)
  · refine leads_orFault fun b _ => ?_
    split <;> exact leads_next.2 (claimAs_registryOk h.1 _ fun _ hi => (firstInChain_some hi).1)

theorem execEEnable_registryOk {s : State} (h : RegistryOk s) : Leads RegistryOk (execEEnable s) := by
  unfold execEEnable
  split
  · exact execBusReset_registryOk h
  · exact leads_next.2 (ChainOk.registryOk (h.1.congr rfl rfl rfl) rfl)
  · split
    · exact claimStaged_registryOk h
    · exact leads_next.2 h

theorem execEClaimWait_registryOk {s : State} (h : RegistryOk s) (he : s.eng = .claimWait) :
    Leads RegistryOk (execEClaimWait s) := by
  have hcur := h.curSlot_mem (by rw [he]; rfl)
  unfold execEClaimWait
  split
  · exact leads_next.2 ⟨h.1.congr rfl rfl rfl, fun _ => hcur, nofun⟩
  · exact leads_next.2 (dropCommand_registryOk h.1 _)
  · exact leads_next.2 h

/-- The command's slot passes to the device layer. -/
theorem dispatch_registryOk {s : State} (h : RegistryOk s) (he : s.eng = .decode) (r : DecRec) :
    RegistryOk (dispatch r s) := by
  have hcur := h.curSlot_mem (by rw [he]; rfl)
  exact ⟨h.1.congr rfl rfl rfl, fun _ => hcur, fun _ => hcur⟩

theorem dispatchError_registryOk {s : State} (h : RegistryOk s) (he : s.eng = .decode) :
    RegistryOk (dispatchError s) := by
  have hcur := h.curSlot_mem (by rw [he]; rfl)
  exact ⟨h.1.congr rfl rfl rfl, fun _ => hcur, fun _ => hcur⟩

theorem assignInit_registryOk {s : State} (h : RegistryOk s) (he : s.eng = .decode) (r : DecRec) :
    Leads RegistryOk (assignInit r s) := by
  have hcur := h.curSlot_mem (by rw [he]; rfl)
  refine leads_orFault fun t ht => leads_next.2 ?_
  have hsame := sameRegistry_startSend ht
  have haddr : ChainOk (setDev s.curSlot { devAt s s.curSlot with addr := r.dest } s) :=
    h.1.setDev hcur (h.present hcur)
  have hchain : ChainOk t := hsame.chainOk (haddr.congr rfl rfl rfl)
  obtain ⟨-, -, hlist, -, hslot, -⟩ := hsame
  refine ⟨hchain.congr rfl rfl rfl, fun _ => ?_, nofun⟩
  show t.curSlot ∈ t.chain
  rw [hlist, hslot]
  exact hcur

/-- Going on from the decode of the staged body: it holds of what follows in a state with the same registry. -/
theorem withStaged_leads {p : State → Prop} {s : State} {k : DecodeResult → State → Out}
    (hk : ∀ d t, SameRegistry s t → Leads p (k d t)) : Leads p (withStaged s k) :=
  leads_orFault fun b _ => hk _ _ (sameRegistry_runDecode b s)

theorem SameRegistry.atDecode {s t : State} (hs : SameRegistry s t) (he : s.eng = .decode) : t.eng = .decode := by
  obtain ⟨-, -, -, heng, -⟩ := hs
  rw [heng, he]

section AtDecode

variable {s : State} (h : RegistryOk s) (he : s.eng = .decode)
include h he

theorem execEDecode_registryOk : Leads RegistryOk (execEDecode s) := by
  refine withStaged_leads fun d t hs => ?_
  have ht := hs.registryOk h
  have hte := hs.atDecode he
  cases d with
  | good r rx =>
    simp only
    split
    · exact assignInit_registryOk ht hte r
    · exact leads_next.2 (dispatch_registryOk ht hte r)
  | bad e rx =>
    simp only
    split
    · exact leads_next.2 (dropCommand_registryOk ht.1 e)
    · exact leads_next.2 (dispatchError_registryOk (s := raise e t) ht hte)

theorem execInitAssign_registryOk : Leads RegistryOk (execInitAssign s) := by
  refine withStaged_leads fun d t hs => ?_
  cases d with
  | good r rx => exact assignInit_registryOk (hs.registryOk h) (hs.atDecode he) r
  | bad e rx => exact leads_next.2 h

theorem execDispatchCmd_registryOk : Leads RegistryOk (execDispatchCmd s) := by
  refine withStaged_leads fun d t hs => ?_
  cases d with
  | good r rx => exact leads_next.2 (dispatch_registryOk (hs.registryOk h) (hs.atDecode he) r)
  | bad e rx => exact leads_next.2 h

theorem execDispatchIoerror_registryOk : Leads RegistryOk (execDispatchIoerror s) := by
  refine withStaged_leads fun d t hs => ?_
  cases d with
  | good r rx => exact leads_next.2 h
  | bad e rx =>
    exact leads_next.2 (dispatchError_registryOk (s := raise e t) (hs.registryOk h) (hs.atDecode he))

theorem dispatchCommand_registryOk (data : List Byte) : Leads RegistryOk (dispatchCommand data s) := by
  refine withStaged_leads fun d t hs => ?_
  cases d with
  | good r rx =>
    simp only
    split
    · exact leads_next.2 (dispatch_registryOk (hs.registryOk h) (hs.atDecode he) r)
    · exact leads_next.2 h
  | bad e rx => exact leads_next.2 h

end AtDecode

theorem execEInitReply_registryOk {s : State} (h : RegistryOk s) : Leads RegistryOk (execEInitReply s) :=
  leads_next.2 (ChainOk.registryOk (h.1.congr rfl rfl rfl) rfl)

theorem execEFinish_registryOk {s : State} (h : RegistryOk s) : Leads RegistryOk (execEFinish s) :=
  leads_next.2 (ChainOk.registryOk (h.1.congr rfl rfl rfl) rfl)

theorem execDevDone_registryOk {s : State} (h : RegistryOk s) (who : Issuer) :
    Leads RegistryOk (execDevDone who s) := by
  unfold execDevDone
  split
  · exact leads_next.2 ((sameRegistry_refuse who s).registryOk h)
  · refine leads_next.2 (RegistryOk.deliver ?_ _ _)
    exact ChainOk.registryOk (h.1.congr rfl rfl rfl) rfl

/-! ### Every operation (42_bus_fsm.md R192) -/

theorem servePort_registryOk {s : State} (h : RegistryOk s) (who : Issuer) (r : Request) :
    Leads RegistryOk (servePort who r s) := by
  unfold servePort
  cases portKind r.op with
  | addDevice => exact execAddDevice_registryOk h who _ _
  | removeDevice => exact execRemoveDevice_registryOk h who _
  | setActive => exact execSetActive_registryOk h who _ _
  | setActiveSlot => exact execSetActiveSlot_registryOk h who _ _
  | deviceByAddr => exact (execDeviceByAddr_sameRegistry who _ s).registryOk h
  | encodePacket => exact (execEncodePacket_sameRegistry who _ _ _ _ _ s).registryOk h
  | decodePacket => exact (execDecodePacket_sameRegistry who _ _ s).registryOk h
  | sendReply => exact (execSendReply_sameRegistry who _ _ _ _ s).registryOk h
  | recvData => exact (execRecvData_sameRegistry who _ s).registryOk h
  | devDone => exact execDevDone_registryOk h who
  | reserved => exact leads_next.2 ((sameRegistry_refuse who s).registryOk h)

theorem engStep_registryOk {s : State} (h : RegistryOk s) : Leads RegistryOk (engStep s) := by
  unfold engStep
  split
  · exact execEIdle_registryOk h
  · exact execEReset_registryOk h
  · exact execEEnable_registryOk h
  · next he => exact execEClaimWait_registryOk h he
  · next he => exact execEDecode_registryOk h he
  · exact execEInitReply_registryOk h
  · exact leads_next.2 h
  · exact execEFinish_registryOk h

theorem execPollDispatch_registryOk {s : State} (h : RegistryOk s) : Leads RegistryOk (execPollDispatch s) := by
  unfold execPollDispatch
  split
  · exact (execSWaitRise_sameRegistry s).registryOk h
  · exact (execSWaitFall_sameRegistry s).registryOk h
  · exact (execRWaitRise_sameRegistry s).registryOk h
  · exact (execRWaitFall_sameRegistry s).registryOk h
  · split
    · next htake => exact servePort_registryOk ((sameRegistry_takeRequest htake).registryOk h) _ _
    · exact engStep_registryOk h

theorem eng_of_engEnabled {e : Eng} {s : State} (h : engEnabled e s = true) : s.eng = e := by
  simp only [engEnabled, Bool.and_eq_true, beq_iff_eq] at h
  exact h.2

/-- The match column of an assignment, of a dispatch and of a command row: an ENG state, and what else it asks. -/
theorem eng_of_enabled_and {e : Eng} {s : State} {b c : Bool} (h : (engEnabled e s && b && c) = true) : s.eng = e := by
  simp only [Bool.and_eq_true] at h
  obtain ⟨⟨heng, -⟩, -⟩ := h
  exact eng_of_engEnabled heng

theorem exec_registryOk {i : Instr} {s : State} (h : RegistryOk s) (hen : enabled i s = true) :
    Leads RegistryOk (exec i s) := by
  cases i with
  | addDevice who slot dtype => exact execAddDevice_registryOk h who slot dtype
  | removeDevice who slot => exact execRemoveDevice_registryOk h who slot
  | setActive who addr v => exact execSetActive_registryOk h who addr v
  | setActiveSlot who slot v => exact execSetActiveSlot_registryOk h who slot v
  | deviceByAddr who addr => exact (execDeviceByAddr_sameRegistry who addr s).registryOk h
  | encodePacket who src ptype status n data =>
    exact (execEncodePacket_sameRegistry who src ptype status n data s).registryOk h
  | decodePacket who n data => exact (execDecodePacket_sameRegistry who n data s).registryOk h
  | sendReply who ptype status n data => exact (execSendReply_sameRegistry who ptype status n data s).registryOk h
  | recvData who n => exact (execRecvData_sameRegistry who n s).registryOk h
  | devDone who => exact execDevDone_registryOk h who
  | portReserved who op => exact leads_next.2 ((sameRegistry_refuse who s).registryOk h)
  | pollDispatch => exact execPollDispatch_registryOk h
  | eIdle => exact execEIdle_registryOk h
  | eReset => exact execEReset_registryOk h
  | busReset => exact execBusReset_registryOk h
  | eEnable => exact execEEnable_registryOk h
  | claim => exact claimStaged_registryOk h
  | eClaimWait => exact execEClaimWait_registryOk h (eng_of_engEnabled hen)
  | eDecode => exact execEDecode_registryOk h (eng_of_engEnabled hen)
  | initAssign => exact execInitAssign_registryOk h (eng_of_enabled_and hen)
  | dispatchCmd => exact execDispatchCmd_registryOk h (eng_of_enabled_and hen)
  | dispatchIoerror => exact execDispatchIoerror_registryOk h (eng_of_enabled_and hen)
  | eInitReply => exact execEInitReply_registryOk h
  | eDevice => exact leads_next.2 h
  | eFinish => exact execEFinish_registryOk h
  | sWaitRise => exact (execSWaitRise_sameRegistry s).registryOk h
  | sWaitFall => exact (execSWaitFall_sameRegistry s).registryOk h
  | rWaitRise => exact (execRWaitRise_sameRegistry s).registryOk h
  | rWaitFall => exact (execRWaitFall_sameRegistry s).registryOk h
  | isrStart => exact (execIsrStart_sameRegistry s).registryOk h
  | iWaitRise => exact (execIWaitRise_sameRegistry s).registryOk h
  | isrStage => exact (stageCommand_sameRegistry s).registryOk h
  | initCmd => exact execInitCmd_registryOk h
  | cmdStatus80 ps => exact dispatchCommand_registryOk h (eng_of_enabled_and hen) _
  | cmdRead81 ps => exact dispatchCommand_registryOk h (eng_of_enabled_and hen) _
  | cmdWrite82 ps => exact dispatchCommand_registryOk h (eng_of_enabled_and hen) _
  | cmdControl84 ps => exact dispatchCommand_registryOk h (eng_of_enabled_and hen) _
  | cmdOpen86 ps => exact dispatchCommand_registryOk h (eng_of_enabled_and hen) _
  | cmdClose87 ps => exact dispatchCommand_registryOk h (eng_of_enabled_and hen) _
  | cmdRead88 ps => exact dispatchCommand_registryOk h (eng_of_enabled_and hen) _
  | cmdWrite89 ps => exact dispatchCommand_registryOk h (eng_of_enabled_and hen) _
  | cmdNone data => exact dispatchCommand_registryOk h (eng_of_enabled_and hen) _
  | _ => exact leads_next.2 h

/-- Settles O51, by cases on what the step is: a power-on reset starts from an empty table, the environment does not
touch the registry, and an operation keeps the invariant where its agent has the step. -/
theorem everyStepKeepsRegistry : Obligations.EveryStepKeepsRegistry := by
  intro s t h hstep
  obtain ⟨rest, -, rfl⟩ | henv | ⟨i, s', ⟨hs', hen⟩, hexec⟩ := step_cases hstep
  · exact registryOk_powerOn s.params s.phase s.reqPin
  · exact (sameRegistry_environment henv).registryOk h
  · have h' : RegistryOk s' := by
      rw [hs']
      exact h
    exact exec_registryOk h' hen t hexec

end Sys2Proof.Machine
end


section
/-! PROOFS. The state and its registers: the TIMER step (O31), HOST's steps (O33), power-on reset (O58), and the CSR
view (O44). -/

namespace Sys2Proof.Machine

/-! ### The TIMER step (10_state.md R44, 42_bus_fsm.md R223) -/

/-- The detector latches: a changed vector sets the request, an unchanged one keeps it. -/
theorem detectEdge_eq (s : State) :
    detectEdge s
      = { s with irqPend := if s.phase ≠ s.prevPhase then true else s.irqPend, prevPhase := s.phase } := by
  by_cases h : s.phase = s.prevPhase <;> simp [detectEdge, h]

/-- Settles O31: both steps are the edge detector, the second after the tick. -/
theorem timerStepTicksAndDetectsEdges : Obligations.TimerStepTicksAndDetectsEdges :=
  fun s => ⟨congrArg _ (detectEdge_eq s), congrArg _ (detectEdge_eq { s with timer := s.timer + 1 })⟩

/-! ### HOST's steps (10_state.md R48, R49, 30_encoding.md R98) -/

/-- The vector with line PH0 driven. -/
theorem getLsbD_drive_ph0 (p : Phase) (v : Bool) (k : Nat) :
    ((p &&& 0b1110#4) ||| (if v then 0b0001#4 else 0b0000#4)).getLsbD k = if k = 0 then v else p.getLsbD k := by
  by_cases hk : k < 4
  · interval_cases k <;> cases v <;> simp
  · have hk' : 4 ≤ k := by omega
    have hne : k ≠ 0 := by omega
    rw [if_neg hne, BitVec.getLsbD_of_ge _ k hk', BitVec.getLsbD_of_ge _ k hk']

theorem driveReq_ph0 {s : State} (h : s.params.reqIsPh0 = true) (v : Bool) :
    driveReq v s = { s with phase := (s.phase &&& 0b1110#4) ||| (if v then 0b0001#4 else 0b0000#4) } :=
  if_pos h

theorem driveReq_pin {s : State} (h : ¬s.params.reqIsPh0 = true) (v : Bool) :
    driveReq v s = { s with reqPin := v } :=
  if_neg h

theorem reqLevel_driveReq (v : Bool) (s : State) : reqLevel (driveReq v s) = v := by
  by_cases h : s.params.reqIsPh0 = true
  · rw [driveReq_ph0 h, reqLevel, if_pos h, getLsbD_drive_ph0, if_pos rfl]
  · rw [driveReq_pin h, reqLevel, if_neg h]

/-- Driving REQ touches the two pins it may stand on, and of the phase lines PH0 alone. -/
theorem driveReq_frame (v : Bool) (s : State) :
    driveReq v s = { s with phase := (driveReq v s).phase, reqPin := (driveReq v s).reqPin }
      ∧ (s.params.reqIsPh0 = true → (driveReq v s).reqPin = s.reqPin)
      ∧ ∀ k, (s.params.reqIsPh0 = true → k ≠ 0) → (driveReq v s).phase.getLsbD k = s.phase.getLsbD k := by
  by_cases h : s.params.reqIsPh0 = true
  · rw [driveReq_ph0 h]
    exact ⟨rfl, fun _ => rfl, fun k hk => (getLsbD_drive_ph0 s.phase v k).trans (if_neg (hk h))⟩
  · rw [driveReq_pin h]
    exact ⟨rfl, fun hreq => absurd hreq h, fun _ _ => rfl⟩

theorem step_req {s : State} {v : Bool} {rest : List Entry} (h : s.script = .req v :: rest) :
    step s = .next (driveReq v { s with script := rest }) := by
  rw [step, fetch, h]
  rfl

/-- A TYPE or frame code queues the bytes it is written with. -/
theorem exec_wireByte {i : Instr} (h : (encode i).1 = .pktType ∨ ∃ pos, (encode i).1 = .frame pos) (s : State) :
    exec i s = .next (queueLine (encode i).2 s) := by
  cases i with
  | typeCommand => rfl
  | typeStatus => rfl
  | typeData => rfl
  | typeReserved t => rfl
  | sync => rfl
  | start => rfl
  | endMark => rfl
  | header dest src ptype aux stat oddcnt grp7cnt => rfl
  | counts odd groups => rfl
  | oddHeader msbs => rfl
  | groupHeader msbs => rfl
  | stuffedByte low => rfl
  | chk1 bits => rfl
  | chk2 bits => rfl
  | _ => obtain h | ⟨pos, h⟩ := h <;> cases h

/-- Settles O33: REQ by the parameter REQ_IS_PH0, the wire codes by cases on the operation. -/
theorem hostDrivesTheWireCodes : Obligations.HostDrivesTheWireCodes := by
  refine ⟨fun s => rfl, fun s v rest h => ?_, fun p s => ⟨rfl, rfl, rfl⟩, fun i s h => exec_wireByte h s⟩
  obtain ⟨hframe, hpin, hlines⟩ := driveReq_frame v { s with script := rest }
  exact ⟨_, step_req h, reqLevel_driveReq v _, hframe, hpin, hlines⟩

/-! ### Power-on reset (10_state.md R56, 70_reset_and_hazards.md R290) -/

theorem bufferOk_nil (bufLen : Nat) : BufferOk bufLen [] 0 :=
  ⟨List.Pairwise.nil, nofun, Nat.zero_le _, nofun⟩

theorem buffersOk_powerOn (P : Params) (p : Phase) (q : Bool) : BuffersOk (State.powerOn P p q) :=
  ⟨bufferOk_nil _, bufferOk_nil _, bufferOk_nil _⟩

theorem handoffOk_powerOn (P : Params) (p : Phase) (q : Bool) : HandoffOk (State.powerOn P p q) := by
  simp [HandoffOk, State.powerOn, noCommand]

theorem errorsOk_powerOn (P : Params) (p : Phase) (q : Bool) : ErrorsOk (State.powerOn P p q) := by
  simp [ErrorsOk, State.powerOn, badopCode]

theorem paramsOk_default : ParamsOk Params.default := by
  have hquirk : Params.default.quirkLenMax ≤ maxPayload Params.default := Nat.zero_le _
  refine ⟨?_, ?_, ?_, ?_, ?_, ?_, ?_, ?_, ?_, ?_, hquirk⟩ <;> decide

/-- Settles O58: R56's values are what State.powerOn writes, and each invariant has its lemma above. (The name
`powerOnReset` is the model's.) -/
theorem powerOnReset_holds : Obligations.PowerOnReset := by
  refine ⟨fun P p q => ?_, rfl, paramsOk_default, fun s rest h => by rw [step, fetch, h]; rfl⟩
  exact ⟨rfl, rfl, rfl, rfl, rfl, rfl, rfl, rfl, rfl, rfl, rfl, rfl, rfl, rfl, rfl, rfl, rfl, rfl, rfl, rfl, rfl,
    rfl, rfl, devAt_powerOn P p q, rfl, rfl, rfl, rfl, rfl, rfl, rfl, fun i => ⟨rfl, rfl, rfl⟩,
    buffersOk_powerOn P p q, registryOk_powerOn P p q, handoffOk_powerOn P p q, errorsOk_powerOn P p q⟩

/-! ### The CSR view (10_state.md R54) -/

/-- The word holds the number `n`, all of it below bit `k`. -/
def HoldsBelow (w : Word32) (k n : Nat) : Prop := w.toNat = n ∧ n < 2 ^ k

theorem HoldsBelow.mono {w : Word32} {k l n : Nat} (h : HoldsBelow w k n) (hkl : k ≤ l) : HoldsBelow w l n :=
  ⟨h.1, Nat.lt_of_lt_of_le h.2 (Nat.pow_le_pow_right (by decide) hkl)⟩

theorem toNat_fieldAt {v width k : Nat} (hk : k + width ≤ 32) :
    (fieldAt v width k).toNat = 2 ^ k * (v % 2 ^ width) := by
  have hv : v % 2 ^ width < 2 ^ width := Nat.mod_lt _ (Nat.two_pow_pos _)
  have hbound : 2 ^ k * (v % 2 ^ width) < 2 ^ 32 := calc
    2 ^ k * (v % 2 ^ width) < 2 ^ k * 2 ^ width := Nat.mul_lt_mul_of_pos_left hv (Nat.two_pow_pos k)
    _ = 2 ^ (k + width) := (Nat.pow_add 2 k width).symm
    _ ≤ 2 ^ 32 := Nat.pow_le_pow_right (by decide) hk
  have hsmall : v % 2 ^ width < 2 ^ 32 := Nat.lt_of_le_of_lt (Nat.le_mul_of_pos_left _ (Nat.two_pow_pos k)) hbound
  rw [fieldAt, BitVec.toNat_shiftLeft, BitVec.toNat_ofNat, Nat.mod_eq_of_lt hsmall, Nat.shiftLeft_eq,
    Nat.mul_comm, Nat.mod_eq_of_lt hbound]

/-- The next field stands above what the word holds. -/
theorem HoldsBelow.field {w : Word32} {k n : Nat} (h : HoldsBelow w k n) (v width : Nat) (hk : k + width ≤ 32) :
    HoldsBelow (w ||| fieldAt v width k) (k + width) (n + 2 ^ k * (v % 2 ^ width)) := by
  obtain ⟨hw, hn⟩ := h
  have hv : v % 2 ^ width + 1 ≤ 2 ^ width := Nat.mod_lt _ (Nat.two_pow_pos _)
  constructor
  · rw [BitVec.toNat_or, toNat_fieldAt hk, hw, Nat.or_comm, ← Nat.two_pow_add_eq_or_of_lt hn, Nat.add_comm]
  · calc n + 2 ^ k * (v % 2 ^ width) < 2 ^ k + 2 ^ k * (v % 2 ^ width) := Nat.add_lt_add_right hn _
      _ = 2 ^ k * (v % 2 ^ width + 1) := by rw [Nat.mul_add, Nat.mul_one, Nat.add_comm]
      _ ≤ 2 ^ k * 2 ^ width := Nat.mul_le_mul_left _ hv
      _ = 2 ^ (k + width) := (Nat.pow_add 2 k width).symm

theorem HoldsBelow.code {w : Word32} {k n v width : Nat} (h : HoldsBelow w k n) (hv : v < 2 ^ width)
    (hk : k + width ≤ 32) : HoldsBelow (w ||| fieldAt v width k) (k + width) (n + 2 ^ k * v) := by
  simpa only [Nat.mod_eq_of_lt hv] using h.field v width hk

theorem flagAt_eq_fieldAt (b : Bool) (k : Nat) : flagAt b k = fieldAt b.toNat 1 k := by cases b <;> rfl

theorem HoldsBelow.flag {w : Word32} {k n : Nat} (h : HoldsBelow w k n) (b : Bool) (hk : k + 1 ≤ 32) :
    HoldsBelow (w ||| flagAt b k) (k + 1) (n + 2 ^ k * b.toNat) := by
  rw [flagAt_eq_fieldAt]
  exact h.code b.toNat_lt hk

theorem byteField_eq_fieldAt (b : Byte) (k : Nat) : byteField b k = fieldAt b.toNat 8 k := by
  rw [byteField, fieldAt, Nat.mod_eq_of_lt b.isLt, BitVec.ofNat_toNat]

theorem HoldsBelow.byte {w : Word32} {k n : Nat} (h : HoldsBelow w k n) (b : Byte) (hk : k + 8 ≤ 32) :
    HoldsBelow (w ||| byteField b k) (k + 8) (n + 2 ^ k * b.toNat) := by
  rw [byteField_eq_fieldAt]
  exact h.code b.isLt hk

/-- A word that is one field. -/
theorem toNat_fieldAt_zero (v : Nat) {width : Nat} (hw : width ≤ 32) :
    (fieldAt v width 0).toNat = v % 2 ^ width := by
  rw [toNat_fieldAt (by omega), Nat.pow_zero, Nat.one_mul]

theorem toNat_byteField_zero (b : Byte) : (byteField b 0).toNat = b.toNat := by
  rw [byteField_eq_fieldAt, toNat_fieldAt_zero _ (by decide), Nat.mod_eq_of_lt b.isLt]

theorem holdsBelow_code {v width : Nat} (hv : v < 2 ^ width) (hw : width ≤ 32) :
    HoldsBelow (fieldAt v width 0) width v :=
  ⟨by rw [toNat_fieldAt_zero v hw, Nat.mod_eq_of_lt hv], hv⟩

theorem engCode_lt (e : Eng) : engCode e < 2 ^ 3 := by cases e <;> decide

theorem phaseCode_lt (c : BusPhase) : phaseCode c < 2 ^ 2 := by cases c <;> decide

theorem trCode_lt (t : TrState) : trCode t < 2 ^ 3 := by cases t <;> decide

theorem resultCode_lt (r : TrResult) : resultCode r < 2 ^ 3 := by cases r <;> decide

theorem kindCode_lt (c : CurKind) : kindCode c < 2 ^ 2 := by cases c <;> decide

theorem toNat_statusWord (s : State) :
    (statusWord s).toNat =
      engCode s.eng + 8 * phaseCode (busState s.eng) + 32 * s.staged.toNat + 64 * s.ack.toNat + 128 * s.irqPend.toNat
        + 256 * (s.isrState == .waitRise).toNat + 512 * trCode s.trState + 4096 * s.lastChkV.toNat
        + 8192 * s.mbLock.toNat + 16384 * s.dispValid.toNat := by
  have hcodes := (holdsBelow_code (engCode_lt s.eng) (by decide)).code (phaseCode_lt (busState s.eng)) (by decide)
  have hflags := (((hcodes.flag s.staged (by decide)).flag s.ack (by decide)).flag s.irqPend (by decide)).flag
    (s.isrState == .waitRise) (by decide)
  have htr := hflags.code (trCode_lt s.trState) (by decide)
  exact (((htr.flag s.lastChkV (by decide)).flag s.mbLock (by decide)).flag s.dispValid (by decide)).1

theorem toNat_phaseWord (s : State) :
    (phaseWord s).toNat =
      s.phase.toNat + 16 * (reqLevel s).toNat + 256 * s.prevPhase.toNat
        + 4096 * phaseCode (classify s.params s.phase) := by
  have hlines := (holdsBelow_code s.phase.isLt (by decide)).flag (reqLevel s) (by decide)
  have hprev := (hlines.mono (show 4 + 1 ≤ 8 by decide)).code s.prevPhase.isLt (by decide)
  exact (hprev.code (phaseCode_lt (classify s.params s.phase)) (by decide)).1

theorem toNat_curWord (s : State) :
    (curWord s).toNat = kindCode s.curKind + 256 * (s.curSlot % 256) + 65536 * s.curStatus.toNat := by
  have hkind := (holdsBelow_code (kindCode_lt s.curKind) (by decide)).mono (show 2 ≤ 8 by decide)
  exact ((hkind.field s.curSlot 8 (by decide)).byte s.curStatus (by decide)).1

theorem toNat_trWord (s : State) : (trWord s).toNat = resultCode s.trResult + 65536 * (s.rxLen % 65536) := by
  have hresult := (holdsBelow_code (resultCode_lt s.trResult) (by decide)).mono (show 3 ≤ 16 by decide)
  exact (hresult.field s.rxLen 16 (by decide)).1

theorem toNat_devWord (d : Device) :
    (devWord d).toNat = d.present.toNat + 2 * d.active.toNat + 256 * d.addr.toNat + 65536 * d.dtype.toNat := by
  have hpresent : HoldsBelow (flagAt d.present 0) 1 d.present.toNat := by
    rw [flagAt_eq_fieldAt]
    exact holdsBelow_code d.present.toNat_lt (by decide)
  have hflags := (hpresent.flag d.active (by decide)).mono (show 1 + 1 ≤ 8 by decide)
  exact ((hflags.byte d.addr (by decide)).byte d.dtype (by decide)).1

theorem phaseCode_busState (e : Eng) :
    phaseCode (busState e) =
      match e with
      | .idle => 0
      | .reset => 1
      | .enable | .claimWait | .decode | .initReply | .device | .finish => 2 := by
  cases e <;> rfl

/-- Past the single registers the space holds the DEV window, the CHAIN window, and nothing. -/
theorem csrWord_past_registers {off : Nat} (h : 0x028 ≤ off) (s : State) :
    csrWord s off =
      if 0x200 ≤ off ∧ off < 0x400 then
        if (off - 0x200) / 4 < s.params.maxDevices then devWord (devAt s ((off - 0x200) / 4)) else 0
      else if 0x400 ≤ off ∧ off < 0x600 then
        (s.chain[(off - 0x400) / 4]?).elim 0xFF#32 (fieldAt · 8 0)
      else 0 := by
  unfold csrWord
  rw [if_neg (by omega), if_neg (by omega), if_neg (by omega), if_neg (by omega), if_neg (by omega),
    if_neg (by omega), if_neg (by omega), if_neg (by omega), if_neg (by omega), if_neg (by omega)]
  cases s.chain[(off - 0x400) / 4]? <;> rfl

theorem csrWord_dev {i : Nat} (hi : i < 128) (s : State) :
    csrWord s (0x200 + 4 * i) = if i < s.params.maxDevices then devWord (devAt s i) else 0 := by
  rw [csrWord_past_registers (by omega), if_pos (by omega), show (0x200 + 4 * i - 0x200) / 4 = i by omega]

theorem csrWord_chain {k : Nat} (hk : k < 128) (s : State) :
    csrWord s (0x400 + 4 * k) = (s.chain[k]?).elim 0xFF#32 (fieldAt · 8 0) := by
  rw [csrWord_past_registers (by omega), if_neg (by omega), if_pos (by omega),
    show (0x400 + 4 * k - 0x400) / 4 = k by omega]

theorem csrWord_reserved {off : Nat} (hlo : 0x028 ≤ off) (hhi : off < 0x200) (s : State) : csrWord s off = 0 := by
  rw [csrWord_past_registers hlo, if_neg (by omega), if_neg (by omega)]

/-- Settles O44: each word is its fields side by side, and the codes are the tables' by cases. -/
theorem csrFields : Obligations.CsrFields := by
  intro s _
  refine ⟨?_, ?_, toNat_byteField_zero s.lastErr, ?_, toNat_byteField_zero s.lastChk, rfl,
    toNat_fieldAt_zero s.mbLen (by decide), toNat_fieldAt_zero s.chain.length (by decide), ?_, ?_,
    fun i hi => ?_, fun k hk => ?_, fun off hlo hhi => csrWord_reserved hlo hhi s⟩
  · refine (toNat_statusWord s).trans ?_
    rw [phaseCode_busState]
    cases s.isrState <;> rfl
  · refine (toNat_phaseWord s).trans ?_
    cases classify s.params s.phase <;> rfl
  · exact BitVec.toNat_setWidth_of_le (show 16 ≤ 32 by decide)
  · refine (toNat_curWord s).trans ?_
    cases s.curKind <;> rfl
  · refine (toNat_trWord s).trans ?_
    cases s.trResult <;> rfl
  · rw [csrWord_dev hi]
    split
    · exact toNat_devWord _
    · rfl
  · rw [csrWord_chain hk]
    split
    · next h =>
      rw [List.getElem?_eq_getElem h]
      exact toNat_fieldAt_zero _ (by decide)
    · next h =>
      rw [List.getElem?_eq_none (Nat.le_of_not_lt h)]
      rfl

end Sys2Proof.Machine
end


section
/-! PROOFS. The memory of the block: MemRead and MemWrite (O42), CSR accesses (O43), and what a step does to the
parameters, TIMER, the emitted bits and the three buffers, said once per operation, with what it gives: the buffers stay
valid (O49), a staged mailbox is stable (O55), only a SEND emits (O56). -/

namespace Sys2Proof.Machine

/-! ### MemRead and MemWrite (20_memory.md R62, R63) -/

theorem memRead_out_of_range {P : Params} {i n : Nat} (h : P.bufLen < i + n) (m : Memory) :
    memRead P m i n = .error .bufRange :=
  if_pos h

theorem memRead_of_readBytes {P : Params} {m : Memory} {i n : Nat} {vs : List Byte} (h : ¬P.bufLen < i + n)
    (hvs : readBytes m i n = some vs) : memRead P m i n = .ok vs := by
  rw [memRead, if_neg h, hvs]

/-- One byte without a value stops the whole read. -/
theorem memRead_unwritten {P : Params} {m : Memory} {i n k : Nat} (h : ¬P.bufLen < i + n) (hk : k < n)
    (hnone : readByte m (i + k) = none) : memRead P m i n = .error .unwritten := by
  have hread : readBytes m i n = none := by
    by_contra hne
    have hsome := (readBytes_isSome m n i).1 (Option.isSome_iff_ne_none.2 hne) k hk
    rw [hnone] at hsome
    cases hsome
  rw [memRead, if_neg h, hread]

/-- Settles O42: a read splits on the range and then on a byte without a value, a write on the range. -/
theorem bufferAccess : Obligations.BufferAccess := by
  intro P m i
  refine ⟨fun n => ?_, fun vs => ?_⟩
  · split_ifs with hrange hnone
    · exact memRead_out_of_range hrange m
    · obtain ⟨k, hk, hbyte⟩ := hnone
      exact memRead_unwritten hrange hk hbyte
    · have hall : ∀ k, k < n → (readByte m (i + k)).isSome = true := fun k hk =>
        Option.isSome_iff_ne_none.2 fun hbyte => hnone ⟨k, hk, hbyte⟩
      obtain ⟨vs, hvs⟩ := Option.isSome_iff_exists.1 ((readBytes_isSome m n i).2 hall)
      exact ⟨vs, memRead_of_readBytes hrange hvs, readBytes_length hvs, readBytes_get hvs⟩
  · split_ifs with hrange
    · exact if_pos hrange
    · exact ⟨writeBytes i vs m, if_neg hrange, fun j => readByte_writeBytes vs i j m⟩

/-! ### CSR accesses (20_memory.md R66, R69, 10_state.md R55) -/

theorem csrOffset_aligned {P : Params} {off : Nat} (hoff : off < csrSize) (halign : off % 4 = 0) :
    csrOffset P (P.csrBase + off) 32 = .ok off := by
  rw [csrOffset, Nat.add_sub_cancel_left]
  exact if_pos ⟨by omega, by omega, rfl, halign⟩

theorem csrOffset_not_word (P : Params) {off width : Nat} (h : width ≠ 32 ∨ off % 4 ≠ 0) :
    csrOffset P (P.csrBase + off) width = .error .csrAccess := by
  rw [csrOffset, Nat.add_sub_cancel_left]
  refine if_neg fun ⟨_, _, hwidth, halign⟩ => ?_
  omega

/-- Settles O43: the access goes on from its offset when it is an aligned word, and stops with the fault when not. -/
theorem csrAccess : Obligations.CsrAccess := by
  intro s off hoff
  refine ⟨fun halign v => ?_, fun width v hbad => ?_⟩
  · have hok : csrOffset s.params (s.params.csrBase + off) 32 = .ok off := csrOffset_aligned hoff halign
    refine ⟨by rw [csrRead, hok, orFault], ?_⟩
    rw [csrWrite, hok, orFault]
    split_ifs <;> rfl
  · have herr := csrOffset_not_word s.params (off := off) (width := width) hbad
    exact ⟨by rw [csrRead, herr, orFault], by rw [csrWrite, herr, orFault]⟩

/-! ### The storage of a state -/

/-- The part of the state the statements below speak of: the parameters, TIMER, the emitted bits, and the three buffers
with their LEN registers and the mailbox's lock. -/
structure Storage where
  params : Params
  timer : Word32
  txBits : List Bool
  txBuf : Memory
  txLen : Nat
  rxBuf : Memory
  rxLen : Nat
  mb : Memory
  mbLen : Nat
  mbLock : Bool

def State.storage (s : State) : Storage where
  params := s.params
  timer := s.timer
  txBits := s.txBits
  txBuf := s.txBuf
  txLen := s.txLen
  rxBuf := s.rxBuf
  rxLen := s.rxLen
  mb := s.mb
  mbLen := s.mbLen
  mbLock := s.mbLock

/-- A packet goes into TXBUF (41_transport.md R153). -/
def Storage.send (raw : List Byte) (m : Storage) : Storage :=
  { m with txBuf := writeBytes 0 raw m.txBuf, txLen := raw.length }

/-- The bits of a packet are emitted (41_transport.md R155). -/
def Storage.emit (raw : List Byte) (m : Storage) : Storage := { m with txBits := m.txBits ++ serialize raw }

/-- A captured body goes into RXBUF (41_transport.md R162). -/
def Storage.receive (body : List Byte) (m : Storage) : Storage :=
  { m with rxBuf := writeBytes 0 body m.rxBuf, rxLen := body.length }

/-- A captured body goes into the mailbox (42_bus_fsm.md R226). -/
def Storage.stage (body : List Byte) (lock : Bool) (m : Storage) : Storage :=
  { m with mb := writeBytes 0 body m.mb, mbLen := body.length, mbLock := lock }

/-- The storage is as it was. -/
def SameStorage (s t : State) : Prop := t.storage = s.storage

/-- Everything an operation can do to the storage, with the state its agent was in. -/
inductive StorageEffect (s t : State) : Prop
  | same (h : t.storage = s.storage)
  | tick (h : t.storage = { s.storage with timer := s.storage.timer + 1 })
  | send (raw : List Byte) (hfit : raw.length ≤ s.storage.params.bufLen) (h : t.storage = s.storage.send raw)
  | emit (raw : List Byte) (hwait : s.trState = .sWaitRise) (hreq : reqLevel s = true)
      (hraw : memRead s.storage.params s.storage.txBuf 0 s.storage.txLen = .ok raw)
      (h : t.storage = s.storage.emit raw) (hack : t.ack = true) (hfall : t.trState = .sWaitFall)
  | receive (body : List Byte) (hfit : body.length ≤ s.storage.params.bufLen) (h : t.storage = s.storage.receive body)
  | stage (body : List Byte) (lock : Bool) (hwait : s.isrState = .waitRise)
      (hfit : body.length ≤ s.storage.params.bufLen) (h : t.storage = s.storage.stage body lock)

/-- What `StorageEffect` asks of the state before is as it was. -/
def SameView (s t : State) : Prop :=
  SameStorage s t ∧ t.trState = s.trState ∧ t.isrState = s.isrState ∧ reqLevel t = reqLevel s

/-- An effect seen from before a change that the storage and the waits do not show. -/
theorem StorageEffect.after {s s' t : State} (hview : SameView s s') (h : StorageEffect s' t) : StorageEffect s t := by
  obtain ⟨hs, htr, hisr, hreq⟩ := hview
  rw [SameStorage] at hs
  cases h with
  | same h => exact .same (by rw [h, hs])
  | tick h => exact .tick (by rw [h, hs])
  | send raw hfit h => exact .send raw (by rwa [← hs]) (by rw [h, hs])
  | emit raw hwait hreq' hraw h hack hfall =>
    exact .emit raw (by rw [← htr, hwait]) (by rw [← hreq, hreq']) (by rw [← hs, hraw]) (by rw [h, hs]) hack hfall
  | receive body hfit h => exact .receive body (by rwa [← hs]) (by rw [h, hs])
  | stage body lock hwait hfit h => exact .stage body lock (by rw [← hisr, hwait]) (by rwa [← hs]) (by rw [h, hs])

theorem SameStorage.trans {s t u : State} (h : SameStorage s t) (h' : SameStorage t u) : SameStorage s u :=
  Eq.trans h' h

theorem Leads.effect {s : State} {o : Out} (h : Leads (SameStorage s) o) : Leads (StorageEffect s) o :=
  h.mono fun _ ht => .same ht

/-! ### What the shared operations do to the storage -/

theorem sameStorage_deliver (who : Issuer) (r : Reply) (s : State) : SameStorage s (deliver who r s) := by
  cases who <;> rfl

theorem sameStorage_refuse (who : Issuer) (s : State) : SameStorage s (refuse who s) := by
  cases who <;> rfl

theorem sameStorage_failRequest (who : Issuer) (e : Err) (s : State) : SameStorage s (failRequest who e s) := by
  cases who <;> rfl

theorem sameStorage_endTransfer (res : TrResult) (rep : Reply) (s : State) :
    SameStorage s (endTransfer res rep s) := by
  simp [SameStorage, State.storage]

theorem sameStorage_timeoutTransfer (res : TrResult) (e : Err) (s : State) :
    SameStorage s (timeoutTransfer res e s) := by
  simp [SameStorage, State.storage]

theorem sameStorage_capture (n : Nat) (s : State) : SameStorage s (capture n s).2 := by
  rw [capture_state]
  rfl

theorem receive_of_sameStorage {s t : State} (h : SameStorage s t) (body : List Byte) :
    { t.storage with rxBuf := writeBytes 0 body s.rxBuf, rxLen := body.length } = s.storage.receive body := by
  rw [show t.storage = s.storage from h]
  rfl

theorem stage_of_sameStorage {s t : State} (h : SameStorage s t) (body : List Byte) (lock : Bool) :
    { t.storage with mb := writeBytes 0 body s.mb, mbLen := body.length, mbLock := lock }
      = s.storage.stage body lock := by
  rw [show t.storage = s.storage from h]
  rfl

theorem sameStorage_claimAs (kind : CurKind) (target : Option Nat) (s : State) :
    SameStorage s (claimAs kind target s) := by
  cases target <;> rfl

theorem sameView_runDecode (b : List Byte) (s : State) : SameView s (runDecode b s).2 := by
  rw [runDecode_state]
  exact ⟨rfl, rfl, rfl, rfl⟩

theorem sameStorage_of_runDecode {b : List Byte} {s t : State} {d : DecodeResult} (h : runDecode b s = (d, t)) :
    SameStorage s t := by
  have hs := (sameView_runDecode b s).1
  rwa [h] at hs

theorem sameView_takeRequest {s t : State} {who : Issuer} {r : Request} (h : takeRequest s = some (who, r, t)) :
    SameView s t := by
  obtain ⟨-, -, ht⟩ | ⟨-, -, ht⟩ := takeRequest_some h <;> rw [ht] <;> exact ⟨rfl, rfl, rfl, rfl⟩

theorem Scheduled.sameView {s s' : State} {i : Instr} (h : Scheduled s i s') : SameView s s' := by
  obtain ⟨hs', -⟩ := h
  rw [hs']
  exact ⟨rfl, rfl, rfl, rfl⟩

theorem startSend_storage {raw : List Byte} {s t : State} (h : startSend raw s = .ok t) :
    raw.length ≤ s.storage.params.bufLen ∧ t.storage = s.storage.send raw := by
  obtain ⟨hfit, rfl⟩ := startSend_ok h
  exact ⟨hfit, rfl⟩

/-! ### The operation port (43_registry.md R240 to R244, 40_codec.md R118, R132, 41_transport.md R171, R172) -/

theorem execAddDevice_sameStorage (who : Issuer) (slot dtype : Byte) (s : State) :
    Leads (SameStorage s) (execAddDevice who slot dtype s) := by
  unfold execAddDevice
  split_ifs
  · exact leads_next.2 (sameStorage_refuse who s)
  · exact leads_next.2 (sameStorage_failRequest who _ s)
  · exact leads_next.2 (sameStorage_deliver who _ _)

theorem execRemoveDevice_sameStorage (who : Issuer) (slot : Byte) (s : State) :
    Leads (SameStorage s) (execRemoveDevice who slot s) := by
  unfold execRemoveDevice
  split_ifs
  · exact leads_next.2 (sameStorage_refuse who s)
  · exact leads_next.2 (sameStorage_failRequest who _ s)
  · exact leads_next.2 (sameStorage_deliver who _ _)

theorem execSetActive_sameStorage (who : Issuer) (addr v : Byte) (s : State) :
    Leads (SameStorage s) (execSetActive who addr v s) := by
  unfold execSetActive
  split
  · exact leads_next.2 (sameStorage_refuse who s)
  · split
    · exact leads_next.2 (sameStorage_failRequest who _ s)
    · exact leads_next.2 (sameStorage_deliver who _ _)

theorem execSetActiveSlot_sameStorage (who : Issuer) (slot v : Byte) (s : State) :
    Leads (SameStorage s) (execSetActiveSlot who slot v s) := by
  unfold execSetActiveSlot
  split_ifs
  · exact leads_next.2 (sameStorage_refuse who s)
  · exact leads_next.2 (sameStorage_failRequest who _ s)
  · exact leads_next.2 (sameStorage_deliver who _ _)

theorem execDeviceByAddr_sameStorage (who : Issuer) (addr : Byte) (s : State) :
    Leads (SameStorage s) (execDeviceByAddr who addr s) := by
  unfold execDeviceByAddr
  split
  · exact leads_next.2 (sameStorage_refuse who s)
  · exact leads_next.2 (sameStorage_deliver who _ s)

theorem execEncodePacket_sameStorage (who : Issuer) (src ptype status : Byte) (n : BitVec 16) (data : List Byte)
    (s : State) : Leads (SameStorage s) (execEncodePacket who src ptype status n data s) := by
  unfold execEncodePacket
  split_ifs
  · exact leads_next.2 (sameStorage_refuse who s)
  · exact leads_next.2 (sameStorage_deliver who _ _)
  · exact leads_next.2 (sameStorage_deliver who _ s)

theorem execDecodePacket_sameStorage (who : Issuer) (n : BitVec 16) (data : List Byte) (s : State) :
    Leads (SameStorage s) (execDecodePacket who n data s) := by
  unfold execDecodePacket
  split
  · exact leads_next.2 (sameStorage_refuse who s)
  · split
    · next hrun => exact leads_next.2 ((sameStorage_of_runDecode hrun).trans (sameStorage_deliver who _ _))
    · next e _ s' hrun =>
      exact leads_next.2 ((sameStorage_of_runDecode hrun).trans (sameStorage_deliver who _ (raise e s')))

/-- A served SEND_REPLY writes TXBUF; a refused one, or one with too long a payload, writes nothing. -/
theorem execSendReply_effect (who : Issuer) (ptype status : Byte) (n : BitVec 16) (data : List Byte) (s : State) :
    Leads (StorageEffect s) (execSendReply who ptype status n data s) := by
  unfold execSendReply
  split_ifs
  · exact leads_next.2 (.same (sameStorage_refuse who s))
  · exact leads_next.2 (.same (sameStorage_deliver who _ _))
  · refine leads_orFault fun t ht => leads_next.2 ?_
    obtain ⟨hfit, hsend⟩ := startSend_storage ht
    exact .send _ hfit hsend

theorem execRecvData_sameStorage (who : Issuer) (n : BitVec 16) (s : State) :
    Leads (SameStorage s) (execRecvData who n s) := by
  unfold execRecvData
  split
  · exact leads_next.2 (sameStorage_refuse who s)
  · exact leads_next.2 rfl

theorem execDevDone_sameStorage (who : Issuer) (s : State) : Leads (SameStorage s) (execDevDone who s) := by
  unfold execDevDone
  split
  · exact leads_next.2 (sameStorage_refuse who s)
  · exact leads_next.2 (sameStorage_deliver who _ _)

theorem servePort_effect (who : Issuer) (r : Request) (s : State) : Leads (StorageEffect s) (servePort who r s) := by
  unfold servePort
  cases portKind r.op with
  | addDevice => exact (execAddDevice_sameStorage who _ _ s).effect
  | removeDevice => exact (execRemoveDevice_sameStorage who _ s).effect
  | setActive => exact (execSetActive_sameStorage who _ _ s).effect
  | setActiveSlot => exact (execSetActiveSlot_sameStorage who _ _ s).effect
  | deviceByAddr => exact (execDeviceByAddr_sameStorage who _ s).effect
  | encodePacket => exact (execEncodePacket_sameStorage who _ _ _ _ _ s).effect
  | decodePacket => exact (execDecodePacket_sameStorage who _ _ s).effect
  | sendReply => exact execSendReply_effect who _ _ _ _ s
  | recvData => exact (execRecvData_sameStorage who _ s).effect
  | devDone => exact (execDevDone_sameStorage who s).effect
  | reserved => exact leads_next.2 (.same (sameStorage_refuse who s))

/-! ### The transport's waits (41_transport.md R156 to R164) -/

theorem execSWaitRise_effect {s : State} (hwait : s.trState = .sWaitRise) :
    Leads (StorageEffect s) (execSWaitRise s) := by
  unfold execSWaitRise
  split
  · exact leads_next.2 (.same rfl)
  · exact leads_next.2 (.same (sameStorage_timeoutTransfer _ _ s))
  · next hreq =>
    exact leads_orFault fun raw hraw => leads_next.2 (.emit raw hwait (waitReq_success.1 hreq) hraw rfl rfl rfl)

theorem execSWaitFall_sameStorage (s : State) : Leads (SameStorage s) (execSWaitFall s) := by
  unfold execSWaitFall
  split
  · exact leads_next.2 rfl
  · exact leads_next.2 (sameStorage_timeoutTransfer _ _ s)
  · exact leads_next.2 (sameStorage_endTransfer _ _ s)

theorem execRWaitRise_effect (s : State) : Leads (StorageEffect s) (execRWaitRise s) := by
  unfold execRWaitRise
  split
  · exact leads_next.2 (.same rfl)
  · exact leads_next.2 (.same (sameStorage_timeoutTransfer _ _ s))
  · refine leads_orFault fun m hm => leads_next.2 ?_
    obtain ⟨hfit, rfl⟩ := memWrite_ok hm
    generalize deserialize s.params _ = d at hfit ⊢
    rw [Nat.zero_add] at hfit
    exact .receive d.2 hfit (receive_of_sameStorage (sameStorage_capture _ s) d.2)

theorem execRWaitFall_sameStorage (s : State) : Leads (SameStorage s) (execRWaitFall s) := by
  unfold execRWaitFall
  split
  · exact leads_next.2 rfl
  · exact leads_next.2 (sameStorage_timeoutTransfer _ _ s)
  · split
    · exact leads_next.2 (sameStorage_endTransfer _ _ (raise .nosync s))
    · refine leads_orFault fun b _ => ?_
      split
      · next hrun => exact leads_next.2 ((sameStorage_of_runDecode hrun).trans (sameStorage_endTransfer _ _ _))
      · next e _ s' hrun =>
        exact leads_next.2 ((sameStorage_of_runDecode hrun).trans (sameStorage_endTransfer _ _ (raise e s')))

/-! ### The prefetch (42_bus_fsm.md R224 to R226) -/

theorem execIsrStart_sameStorage (s : State) : Leads (SameStorage s) (execIsrStart s) := by
  refine leads_next.2 ?_
  obtain h | h := takeInterrupt_cases s <;> rw [h] <;> rfl

theorem stageCommand_effect {s : State} (hwait : s.isrState = .waitRise) :
    Leads (StorageEffect s) (stageCommand s) := by
  refine leads_orFault fun m hm => leads_next.2 ?_
  obtain ⟨hfit, rfl⟩ := memWrite_ok hm
  generalize deserialize s.params _ = d at hfit ⊢
  rw [Nat.zero_add] at hfit
  exact .stage d.2 d.1 hwait hfit (stage_of_sameStorage (sameStorage_capture _ s) d.2 d.1)

theorem execIWaitRise_effect {s : State} (hwait : s.isrState = .waitRise) :
    Leads (StorageEffect s) (execIWaitRise s) := by
  unfold execIWaitRise
  split
  · exact stageCommand_effect hwait
  · exact leads_next.2 (.same rfl)
  · exact leads_next.2 (.same rfl)

/-! ### The engine (42_bus_fsm.md R193 to R217) -/

theorem execEIdle_sameStorage (s : State) : Leads (SameStorage s) (execEIdle s) := by
  unfold execEIdle
  split <;> exact leads_next.2 rfl

theorem execEReset_sameStorage (s : State) : Leads (SameStorage s) (execEReset s) := by
  unfold execEReset
  split <;> exact leads_next.2 rfl

theorem claimStaged_sameStorage (s : State) : Leads (SameStorage s) (claimStaged s) := by
  unfold claimStaged
  split_ifs
  · exact leads_next.2 rfl
  · exact leads_next.2 rfl
  · refine leads_orFault fun b _ => ?_
    split <;> exact leads_next.2 (sameStorage_claimAs _ _ s)

theorem execEEnable_sameStorage (s : State) : Leads (SameStorage s) (execEEnable s) := by
  unfold execEEnable
  split
  · exact leads_next.2 rfl
  · exact leads_next.2 rfl
  · split
    · exact claimStaged_sameStorage s
    · exact leads_next.2 rfl

theorem execEClaimWait_sameStorage (s : State) : Leads (SameStorage s) (execEClaimWait s) := by
  unfold execEClaimWait
  split <;> exact leads_next.2 rfl

/-- The INIT reply goes into TXBUF. -/
theorem assignInit_effect (r : DecRec) (s : State) : Leads (StorageEffect s) (assignInit r s) := by
  refine leads_orFault fun t ht => leads_next.2 ?_
  obtain ⟨hfit, hsend⟩ := startSend_storage ht
  exact .send _ hfit hsend

/-- Going on from the decode of the staged body: an effect of what follows is one of the whole step. -/
theorem withStaged_effect {s : State} {k : DecodeResult → State → Out}
    (hk : ∀ d t, SameView s t → Leads (StorageEffect s) (k d t)) : Leads (StorageEffect s) (withStaged s k) :=
  leads_orFault fun b _ => hk _ _ (sameView_runDecode b s)

theorem execEDecode_effect (s : State) : Leads (StorageEffect s) (execEDecode s) := by
  refine withStaged_effect fun d t hview => ?_
  cases d with
  | good r rx =>
    simp only
    split
    · exact (assignInit_effect r t).mono fun _ => .after hview
    · exact leads_next.2 (.same hview.1)
  | bad e rx =>
    simp only
    split <;> exact leads_next.2 (.same hview.1)

theorem execInitAssign_effect (s : State) : Leads (StorageEffect s) (execInitAssign s) := by
  refine withStaged_effect fun d t hview => ?_
  cases d with
  | good r rx => exact (assignInit_effect r t).mono fun _ => .after hview
  | bad e rx => exact leads_next.2 (.same rfl)

theorem execDispatchCmd_effect (s : State) : Leads (StorageEffect s) (execDispatchCmd s) := by
  refine withStaged_effect fun d t hview => ?_
  cases d with
  | good r rx => exact leads_next.2 (.same hview.1)
  | bad e rx => exact leads_next.2 (.same rfl)

theorem execDispatchIoerror_effect (s : State) : Leads (StorageEffect s) (execDispatchIoerror s) := by
  refine withStaged_effect fun d t hview => ?_
  cases d with
  | good r rx => exact leads_next.2 (.same rfl)
  | bad e rx => exact leads_next.2 (.same hview.1)

theorem dispatchCommand_effect (data : List Byte) (s : State) :
    Leads (StorageEffect s) (dispatchCommand data s) := by
  refine withStaged_effect fun d t hview => ?_
  cases d with
  | good r rx =>
    simp only
    split
    · exact leads_next.2 (.same hview.1)
    · exact leads_next.2 (.same rfl)
  | bad e rx => exact leads_next.2 (.same rfl)

theorem engStep_effect (s : State) : Leads (StorageEffect s) (engStep s) := by
  unfold engStep
  cases s.eng with
  | idle => exact (execEIdle_sameStorage s).effect
  | reset => exact (execEReset_sameStorage s).effect
  | enable => exact (execEEnable_sameStorage s).effect
  | claimWait => exact (execEClaimWait_sameStorage s).effect
  | decode => exact execEDecode_effect s
  | initReply => exact leads_next.2 (.same rfl)
  | device => exact leads_next.2 (.same rfl)
  | finish => exact leads_next.2 (.same rfl)

/-! ### Every operation (42_bus_fsm.md R192) -/

theorem execPollDispatch_effect (s : State) : Leads (StorageEffect s) (execPollDispatch s) := by
  unfold execPollDispatch
  split
  · next hwait => exact execSWaitRise_effect hwait
  · exact (execSWaitFall_sameStorage s).effect
  · exact execRWaitRise_effect s
  · exact (execRWaitFall_sameStorage s).effect
  · split
    · next htake => exact (servePort_effect _ _ _).mono fun _ => .after (sameView_takeRequest htake)
    · exact engStep_effect s

theorem trState_of_trEnabled {tr : TrState} {s : State} (h : trEnabled tr s = true) : s.trState = tr := by
  simp only [trEnabled, Bool.and_eq_true, beq_iff_eq] at h
  exact h.2

/-- What an operation does to the storage, where its agent has the step. -/
theorem exec_effect {i : Instr} {s : State} (hen : enabled i s = true) : Leads (StorageEffect s) (exec i s) := by
  cases i with
  | addDevice who slot dtype => exact (execAddDevice_sameStorage who slot dtype s).effect
  | removeDevice who slot => exact (execRemoveDevice_sameStorage who slot s).effect
  | setActive who addr v => exact (execSetActive_sameStorage who addr v s).effect
  | setActiveSlot who slot v => exact (execSetActiveSlot_sameStorage who slot v s).effect
  | deviceByAddr who addr => exact (execDeviceByAddr_sameStorage who addr s).effect
  | encodePacket who src ptype status n data =>
    exact (execEncodePacket_sameStorage who src ptype status n data s).effect
  | decodePacket who n data => exact (execDecodePacket_sameStorage who n data s).effect
  | sendReply who ptype status n data => exact execSendReply_effect who ptype status n data s
  | recvData who n => exact (execRecvData_sameStorage who n s).effect
  | devDone who => exact (execDevDone_sameStorage who s).effect
  | portReserved who op => exact leads_next.2 (.same (sameStorage_refuse who s))
  | pollDispatch => exact execPollDispatch_effect s
  | eIdle => exact (execEIdle_sameStorage s).effect
  | eReset => exact (execEReset_sameStorage s).effect
  | eEnable => exact (execEEnable_sameStorage s).effect
  | claim => exact (claimStaged_sameStorage s).effect
  | eClaimWait => exact (execEClaimWait_sameStorage s).effect
  | eDecode => exact execEDecode_effect s
  | initAssign => exact execInitAssign_effect s
  | dispatchCmd => exact execDispatchCmd_effect s
  | dispatchIoerror => exact execDispatchIoerror_effect s
  | sWaitRise => exact execSWaitRise_effect (trState_of_trEnabled hen)
  | sWaitFall => exact (execSWaitFall_sameStorage s).effect
  | rWaitRise => exact execRWaitRise_effect s
  | rWaitFall => exact (execRWaitFall_sameStorage s).effect
  | isrStart => exact (execIsrStart_sameStorage s).effect
  | iWaitRise => exact execIWaitRise_effect (beq_iff_eq.1 hen)
  | isrStage => exact stageCommand_effect (beq_iff_eq.1 (Bool.and_eq_true_iff.1 hen).1)
  | timerTick => exact leads_next.2 (.tick rfl)
  | initCmd => exact leads_next.2 (.same (sameStorage_claimAs _ _ s))
  | cmdStatus80 ps => exact dispatchCommand_effect _ s
  | cmdRead81 ps => exact dispatchCommand_effect _ s
  | cmdWrite82 ps => exact dispatchCommand_effect _ s
  | cmdControl84 ps => exact dispatchCommand_effect _ s
  | cmdOpen86 ps => exact dispatchCommand_effect _ s
  | cmdClose87 ps => exact dispatchCommand_effect _ s
  | cmdRead88 ps => exact dispatchCommand_effect _ s
  | cmdWrite89 ps => exact dispatchCommand_effect _ s
  | cmdNone data => exact dispatchCommand_effect data s
  | _ => exact leads_next.2 (.same rfl)

theorem Scheduled.effect {s s' t : State} {i : Instr} (h : Scheduled s i s') (hexec : exec i s' = .next t) :
    StorageEffect s t :=
  .after h.sameView (exec_effect h.2 t hexec)

/-! ### The buffers stay valid (20_memory.md R62 to R64) -/

/-- A write from index 0 that fits makes the written part the valid one. -/
theorem BufferOk.write {bufLen len : Nat} {m : Memory} (h : BufferOk bufLen m len) {vs : List Byte}
    (hfit : vs.length ≤ bufLen) : BufferOk bufLen (writeBytes 0 vs m) vs.length := by
  obtain ⟨hwf, hin, -, -⟩ := h
  refine ⟨writeBytes_wf vs 0 hwf, fun c hc => ?_, hfit, fun i hi => ?_⟩
  · obtain hold | ⟨-, hnew⟩ := mem_writeBytes vs 0 hc
    · exact hin c hold
    · omega
  · rw [readByte_writeBytes, if_pos ⟨Nat.zero_le i, by omega⟩, Nat.sub_zero, List.getElem?_eq_getElem hi]
    rfl

/-- The three buffers, as a property of the storage. -/
def Storage.BuffersOk (m : Storage) : Prop :=
  BufferOk m.params.bufLen m.txBuf m.txLen ∧ BufferOk m.params.bufLen m.rxBuf m.rxLen
    ∧ BufferOk m.params.bufLen m.mb m.mbLen

theorem buffersOk_iff (s : State) : BuffersOk s ↔ s.storage.BuffersOk := Iff.rfl

theorem StorageEffect.buffersOk {s t : State} (h : StorageEffect s t) (hs : BuffersOk s) : BuffersOk t := by
  obtain ⟨htx, hrx, hmb⟩ := (buffersOk_iff s).1 hs
  rw [buffersOk_iff]
  cases h with
  | same h => exact h ▸ ⟨htx, hrx, hmb⟩
  | tick h => exact h ▸ ⟨htx, hrx, hmb⟩
  | send raw hfit h => exact h ▸ ⟨htx.write hfit, hrx, hmb⟩
  | emit raw _ _ _ h => exact h ▸ ⟨htx, hrx, hmb⟩
  | receive body hfit h => exact h ▸ ⟨htx, hrx.write hfit, hmb⟩
  | stage body lock _ hfit h => exact h ▸ ⟨htx, hrx, hmb.write hfit⟩

/-- Settles O49, by cases on what the step is: a power-on reset starts from empty buffers, the environment touches none,
and an operation writes at most one of them, from index 0, with bytes that fit. -/
theorem everyStepKeepsBuffers : Obligations.EveryStepKeepsBuffers := by
  intro s t h hstep
  obtain ⟨rest, -, rfl⟩ | henv | ⟨i, s', hsched, hexec⟩ := step_cases hstep
  · exact buffersOk_powerOn s.params s.phase s.reqPin
  · rw [henv]
    exact h
  · exact (hsched.effect hexec).buffersOk h

/-! ### The handoff of the mailbox (20_memory.md R71) -/

theorem sameMailbox_of_storage {s t : State} {m : Storage} (h : t.storage = m)
    (hm : m.mb = s.mb ∧ m.mbLen = s.mbLen ∧ m.mbLock = s.mbLock) : SameMailbox s t := by
  subst h
  exact hm

/-- Only the prefetch writes the mailbox. -/
theorem StorageEffect.sameMailbox {s t : State} (h : StorageEffect s t) (hisr : s.isrState ≠ .waitRise) :
    SameMailbox s t := by
  cases h with
  | same h => exact sameMailbox_of_storage h ⟨rfl, rfl, rfl⟩
  | tick h => exact sameMailbox_of_storage h ⟨rfl, rfl, rfl⟩
  | send raw _ h => exact sameMailbox_of_storage h ⟨rfl, rfl, rfl⟩
  | emit raw _ _ _ h => exact sameMailbox_of_storage h ⟨rfl, rfl, rfl⟩
  | receive body _ h => exact sameMailbox_of_storage h ⟨rfl, rfl, rfl⟩
  | stage body lock hwait => exact absurd hwait hisr

/-- Settles O55: the prefetch does not wait while a command is staged, and no other operation writes the mailbox. -/
theorem stagedMailboxIsStable : Obligations.StagedMailboxIsStable := by
  intro s t hok hstaged hpower hstep
  have hisr : s.isrState ≠ .waitRise := by
    intro hwait
    obtain ⟨-, hempty, -⟩ := hok
    rw [hstaged] at hempty
    exact Bool.noConfusion (hempty hwait).1
  obtain ⟨rest, hscript, -⟩ | henv | ⟨i, s', hsched, hexec⟩ := step_cases hstep
  · rw [powerOnNext, hscript] at hpower
    cases hpower
  · rw [henv]
    exact ⟨rfl, rfl, rfl⟩
  · exact (hsched.effect hexec).sameMailbox hisr

/-! ### Parameters, TIMER and the emitted bits (20_memory.md R75, 10_state.md R44, 41_transport.md R155) -/

theorem StorageEffect.params {s t : State} (h : StorageEffect s t) : t.params = s.params := by
  cases h with
  | same h => exact congrArg Storage.params h
  | tick h => exact congrArg Storage.params h
  | send raw _ h => exact congrArg Storage.params h
  | emit raw _ _ _ h => exact congrArg Storage.params h
  | receive body _ h => exact congrArg Storage.params h
  | stage body lock _ _ h => exact congrArg Storage.params h

theorem StorageEffect.timer {s t : State} (h : StorageEffect s t) : t.timer = s.timer ∨ t.timer = s.timer + 1 := by
  cases h with
  | same h => exact .inl (congrArg Storage.timer h)
  | tick h => exact .inr (congrArg Storage.timer h)
  | send raw _ h => exact .inl (congrArg Storage.timer h)
  | emit raw _ _ _ h => exact .inl (congrArg Storage.timer h)
  | receive body _ h => exact .inl (congrArg Storage.timer h)
  | stage body lock _ _ h => exact .inl (congrArg Storage.timer h)

/-- The packet in TXBUF went out in a successful wait for REQ (41_transport.md R156, R158). -/
def SendEmitted (s t : State) : Prop :=
  ∃ raw, s.trState = .sWaitRise ∧ reqLevel s = true ∧ memRead s.params s.txBuf 0 s.txLen = .ok raw
    ∧ t.txBits = s.txBits ++ serialize raw ∧ t.ack = true ∧ t.trState = .sWaitFall

theorem StorageEffect.txBits {s t : State} (h : StorageEffect s t) : t.txBits = s.txBits ∨ SendEmitted s t := by
  cases h with
  | same h => exact .inl (congrArg Storage.txBits h)
  | tick h => exact .inl (congrArg Storage.txBits h)
  | send raw _ h => exact .inl (congrArg Storage.txBits h)
  | emit raw hwait hreq hraw h hack hfall =>
    exact .inr ⟨raw, hwait, hreq, hraw, congrArg Storage.txBits h, hack, hfall⟩
  | receive body _ h => exact .inl (congrArg Storage.txBits h)
  | stage body lock _ _ h => exact .inl (congrArg Storage.txBits h)

theorem reference_ne_done (s : State) (o : Out) : reference s ≠ .done o := by
  unfold reference
  split <;> exact nofun

/-- What is fetched to run is an operation whose agent has the step. -/
theorem scheduled_of_fetch {s s' : State} {i : Instr} (h : fetch s = .run i s') : Scheduled s i s' := by
  unfold fetch at h
  split at h
  · have hlaw := reference_lawful s
    rwa [h] at hlaw
  · next e rest _ =>
    have he : e ≠ .powerOn := by
      rintro rfl
      cases h
    have hlaw := fetchEntry_lawful he { s with script := rest }
    rwa [h] at hlaw

theorem csrRead_txBits (addr width : Nat) (s : State) : Leads (fun t => t.txBits = s.txBits) (csrRead addr width s) :=
  leads_orFault fun _ _ => leads_next.2 rfl

theorem csrWrite_txBits (addr width : Nat) (v : Word32) (s : State) :
    Leads (fun t => t.txBits = s.txBits) (csrWrite addr width v s) := by
  refine leads_orFault fun off _ => ?_
  split <;> exact leads_next.2 rfl

/-- An entry that runs no operation leaves the emitted bits, unless HOST reads them: a power-on reset too. -/
theorem fetchEntry_txBits {e : Entry} (he : ∀ k, e ≠ .readTx k) {s : State} {o : Out}
    (h : fetchEntry e s = .done o) : Leads (fun t => t.txBits = s.txBits) o := by
  cases e with
  | code f bs =>
    simp only [fetchEntry, fetchCode] at h
    split at h
    · cases h
      exact leads_refused _ _
    · split at h <;> cases h
      exact leads_next.2 rfl
  | req v =>
    cases h
    refine leads_next.2 ?_
    unfold driveReq
    split <;> rfl
  | line bytes => cases h; exact leads_next.2 rfl
  | samples xs => cases h; exact leads_next.2 rfl
  | readTx k => exact absurd rfl (he k)
  | offer who r =>
    cases h
    refine leads_next.2 ?_
    unfold offer
    split
    · rfl
    · cases who <;> rfl
  | csrRead who addr width =>
    cases h
    split
    · exact leads_next.2 rfl
    · exact csrRead_txBits addr width s
  | csrWrite who addr width v =>
    cases h
    split
    · exact leads_next.2 rfl
    · exact csrWrite_txBits addr width v s
  | powerOn => cases h; exact leads_next.2 rfl
  | run k =>
    simp only [fetchEntry] at h
    split at h
    · cases h
      exact leads_next.2 rfl
    · exact absurd h (reference_ne_done _ o)
  | runUntil c b =>
    simp only [fetchEntry] at h
    split_ifs at h
    · cases h
      exact leads_next.2 rfl
    · cases h
      exact leads_next.2 rfl
    · exact absurd h (reference_ne_done _ o)
  | await who =>
    simp only [fetchEntry] at h
    split at h
    · cases h
      exact leads_next.2 rfl
    · exact absurd h (reference_ne_done _ o)
  | expectTx bytes => cases h; exact leads_next.2 rfl

theorem fetch_txBits {s : State} {o : Out} (hread : readTxNext s = false) (h : fetch s = .done o) :
    Leads (fun t => t.txBits = s.txBits) o := by
  unfold fetch at h
  split at h
  · exact absurd h (reference_ne_done s o)
  · next e rest hscript =>
    have he : ∀ k, e ≠ .readTx k := by
      rintro k rfl
      rw [readTxNext, hscript] at hread
      cases hread
    exact fetchEntry_txBits (s := { s with script := rest }) he h

theorem step_keeps_params {s t : State} (h : step s = .next t) : t.params = s.params := by
  obtain ⟨rest, -, rfl⟩ | henv | ⟨i, s', hsched, hexec⟩ := step_cases h
  · rfl
  · rw [henv]
  · exact (hsched.effect hexec).params

theorem step_ticks_at_most_once {s t : State} (hpower : powerOnNext s = false) (h : step s = .next t) :
    t.timer = s.timer ∨ t.timer = s.timer + 1 := by
  obtain ⟨rest, hscript, -⟩ | henv | ⟨i, s', hsched, hexec⟩ := step_cases h
  · rw [powerOnNext, hscript] at hpower
    cases hpower
  · exact .inl (by rw [henv])
  · exact (hsched.effect hexec).timer

theorem step_emits_only_sends {s t : State} (hread : readTxNext s = false) (h : step s = .next t) :
    t.txBits = s.txBits ∨ SendEmitted s t := by
  unfold step at h
  cases hfetch : fetch s with
  | run i s' =>
    rw [hfetch] at h
    exact ((scheduled_of_fetch hfetch).effect h).txBits
  | done o =>
    rw [hfetch] at h
    exact .inl (fetch_txBits hread hfetch t h)

/-- Settles O56: the three conjuncts are what a step does to the parameters, to TIMER and to the emitted bits. -/
theorem onlySendsEmit : Obligations.OnlySendsEmit := fun _ _ hstep =>
  ⟨step_keeps_params hstep, fun hpower => step_ticks_at_most_once hpower hstep,
    fun hread => step_emits_only_sends hread hstep⟩

end Sys2Proof.Machine
end

section
/-! PROOFS. The encodings: decode inverts encode, code space by code space (O48, O47), and an op code outside the table
is refused (O11). -/

namespace Sys2Proof

/-! ### The operation port (30_encoding.md R93, R94) -/

/-- The byte layout of a request loses no field; N is its high byte before its low byte. -/
@[simp] theorem Request.ofBytes_toBytes (r : Request) : Request.ofBytes r.toBytes = some r := by
  have hn : r.n.extractLsb' 8 8 ++ r.n.extractLsb' 0 8 = r.n := by
    rw [BitVec.extractLsb'_append_extractLsb'_eq_extractLsb' (by rfl), BitVec.extractLsb'_eq_self]
  simp only [toBytes, ofBytes, hn]

/-- The code of a request is decoded by its op code, whatever its fields. -/
theorem decode_portCode (P : Params) (who : Issuer) (op a b c : Byte) (n : BitVec 16) (data : List Byte) :
    decode P (portCode who op a b c n data).1 (portCode who op a b c n data).2
      = .ok (decodeRequest who { op := op, a := a, b := b, c := c, n := n, data := data }) := by
  simp only [portCode, decode, Request.ofBytes_toBytes]

theorem portKind_of_not_mem {op : Byte} (h : op ∉ portOps) : portKind op = .reserved := by
  simp only [portOps, List.mem_cons, List.not_mem_nil, or_false, not_or] at h
  simp only [portKind, h, if_false]

theorem decodeRequest_of_not_mem {r : Request} (h : r.op ∉ portOps) (who : Issuer) :
    decodeRequest who r = .portReserved who r.op := by
  simp only [decodeRequest, portKind_of_not_mem h]

/-! ### Phase vectors (30_encoding.md R91) -/

/-- A phase vector is a byte with a zero high half. -/
theorem decode_phase_setWidth (P : Params) (p : Phase) :
    decode P .phase [p.setWidth 8] = .ok (decodePhase P p) := by
  have hhigh : p.setWidth 8 &&& 0xF0#8 = 0x00#8 := by revert p; decide
  have hlow : (p.setWidth 8).setWidth 4 = p := by revert p; decide
  simp only [decode, oneByte_single, hhigh, hlow, if_true]

theorem decodePhase_of_reset {P : Params} {p : Phase} (h : P.resetSet.contains p = true) :
    decodePhase P p = .phaseReset p := by
  simp only [decodePhase, classify, h, if_true]

theorem decodePhase_of_enable {P : Params} {p : Phase} (hr : P.resetSet.contains p = false)
    (he : P.enableSet.contains p = true) : decodePhase P p = .phaseEnable p := by
  simp only [decodePhase, classify, hr, he, if_true, Bool.false_eq_true, if_false]

theorem decodePhase_of_idle {P : Params} {p : Phase} (hr : P.resetSet.contains p = false)
    (he : P.enableSet.contains p = false) : decodePhase P p = .phaseIdle p := by
  simp only [decodePhase, classify, hr, he, Bool.false_eq_true, if_false]

/-! ### Packet TYPE and command opcode (30_encoding.md R85, R92) -/

theorem decodeType_of_not_mem {t : Byte} (hhigh : highBit t = true) (h : t ∉ namedTypes) :
    decodeType t = .ok (.typeReserved t) := by
  simp only [namedTypes, List.mem_cons, List.not_mem_nil, or_false, not_or] at h
  simp only [decodeType, h, hhigh, if_true, if_false]

/-- CMD_NONE keeps the whole payload, which may be empty: its opcode is no parameter. -/
theorem decodeCommand_of_not_named {data : List Byte} (h : data.head?.any namedOpcodes.contains = false) :
    decodeCommand data = .cmdNone data := by
  cases data with
  | nil => rfl
  | cons op ps =>
    simp only [namedOpcodes, List.head?_cons, Option.any_some, List.contains_eq_mem, List.mem_cons, List.not_mem_nil,
      or_false, decide_eq_false_iff_not, not_or] at h
    simp only [decodeCommand, h, if_false]

/-! ### Frame bytes (30_encoding.md R81 to R90) -/

theorem decodeFrame_counts_bytes {o : BitVec 7} (h : o.toNat ≤ 6) (g : BitVec 7) :
    decodeFrame .counts [countByte o, countByte g] = .ok (.counts o g) := by
  obtain ⟨hohigh, ho⟩ := countByte_fields o
  obtain ⟨hghigh, hg⟩ := countByte_fields g
  simp only [decodeFrame_counts, hohigh, ho, hghigh, hg, h, Bool.and_self, Bool.not_true, Bool.false_eq_true, if_false,
    if_true]

theorem decodeFrame_oddHeaderByte (m : BitVec 6) : decodeFrame .oddHeader [oddHeaderByte m] = .ok (.oddHeader m) := by
  obtain ⟨hhigh, hzero, hm⟩ := oddHeaderByte_fields m
  simp only [decodeFrame_oddHeader, hhigh, hzero, hm, Bool.not_false, Bool.and_self, if_true]

theorem decodeFrame_groupHeaderByte (m : BitVec 7) :
    decodeFrame .groupHeader [groupHeaderByte m] = .ok (.groupHeader m) := by
  obtain ⟨hhigh, hm⟩ := groupHeaderByte_fields m
  rw [decodeFrame_groupHeader, if_pos hhigh, hm]

theorem decodeFrame_stuffedDataByte (d : BitVec 7) :
    decodeFrame .stuffed [stuffedDataByte d] = .ok (.stuffedByte d) := by
  obtain ⟨hhigh, hd⟩ := stuffedDataByte_fields d
  rw [decodeFrame_stuffed, if_pos hhigh, hd]

theorem decodeFrame_chk1_checkByte (c : BitVec 4) : decodeFrame .chk1 [checkByte c] = .ok (.chk1 c) := by
  obtain ⟨hfixed, hc⟩ := checkByte_fields c
  rw [decodeFrame_chk1, if_pos hfixed, hc]

theorem decodeFrame_chk2_checkByte (c : BitVec 4) : decodeFrame .chk2 [checkByte c] = .ok (.chk2 c) := by
  obtain ⟨hfixed, hc⟩ := checkByte_fields c
  rw [decodeFrame_chk2, if_pos hfixed, hc]

/-! ### All code spaces -/

/-- Settles O48, by cases on the operation. An operation named by its first byte is read off that byte; for the catch-all
rows (PORT_RESERVED, TYPE_RESERVED, CMD_NONE) and the phase classes, `wellFormed` says that no other row has the code. -/
theorem decodeEncodeRoundTrip : Obligations.DecodeEncodeRoundTrip := by
  intro P i hwf
  cases i with
  | addDevice | removeDevice | setActive | setActiveSlot | deviceByAddr | encodePacket | decodePacket | sendReply
  | recvData | devDone => exact decode_portCode ..
  | portReserved who op =>
    have hop : op ∉ portOps := by simpa [Instr.wellFormed] using hwf
    rw [encode, decode_portCode, decodeRequest_of_not_mem hop]
  | pollDispatch => rfl
  | eIdle | eReset | busReset | eEnable | claim | eClaimWait | eDecode | initAssign | dispatchCmd | dispatchIoerror
  | eInitReply | eDevice | eFinish => rfl
  | sWaitRise | sWaitFall | rWaitRise | rWaitFall => rfl
  | isrStart | iWaitRise | isrStage => rfl
  | edgeDetect | timerTick => rfl
  | phaseReset p => rw [encode, decode_phase_setWidth, decodePhase_of_reset hwf]
  | phaseEnable p =>
    simp only [Instr.wellFormed, Bool.and_eq_true, Bool.not_eq_true'] at hwf
    obtain ⟨hr, he⟩ := hwf
    rw [encode, decode_phase_setWidth, decodePhase_of_enable hr he]
  | phaseIdle p =>
    simp only [Instr.wellFormed, Bool.and_eq_true, Bool.not_eq_true'] at hwf
    obtain ⟨hr, he⟩ := hwf
    rw [encode, decode_phase_setWidth, decodePhase_of_idle hr he]
  | typeCommand | typeStatus | typeData => rfl
  | typeReserved t =>
    obtain ⟨hhigh, ht⟩ : highBit t = true ∧ t ∉ namedTypes := by simpa [Instr.wellFormed] using hwf
    exact decodeType_of_not_mem hhigh ht
  | initCmd | cmdStatus80 | cmdRead81 | cmdWrite82 | cmdControl84 | cmdOpen86 | cmdClose87 | cmdRead88
  | cmdWrite89 => rfl
  | cmdNone data =>
    simp only [Instr.wellFormed, Bool.not_eq_true'] at hwf
    simp only [encode, decode, decodeCommand_of_not_named hwf]
  | sync | start | endMark => rfl
  | header d s t a st o g => exact (decodeFrame_header d s t a st o g).trans (if_pos hwf)
  | counts o g => exact decodeFrame_counts_bytes (of_decide_eq_true hwf) g
  | oddHeader m => exact decodeFrame_oddHeaderByte m
  | groupHeader m => exact decodeFrame_groupHeaderByte m
  | stuffedByte d => exact decodeFrame_stuffedDataByte d
  | chk1 c => exact decodeFrame_chk1_checkByte c
  | chk2 c => exact decodeFrame_chk2_checkByte c

/-- Settles O47: each of the ten codes is the code of a well-formed operation. -/
theorem someCodesDecode : Obligations.SomeCodesDecode :=
  ⟨decodeEncodeRoundTrip _ (.addDevice .app 2#8 0x10#8) rfl,
    decodeEncodeRoundTrip _ (.sendReply .devlayer 0x81#8 0x00#8 1#16 [0xF8#8]) rfl,
    decodeEncodeRoundTrip _ .eDecode rfl, decodeEncodeRoundTrip _ .rWaitRise rfl,
    decodeEncodeRoundTrip _ (.phaseReset 0b0101#4) rfl, decodeEncodeRoundTrip _ .typeData rfl,
    decodeEncodeRoundTrip _ (.cmdRead81 [0x03#8]) rfl, decodeEncodeRoundTrip _ (.counts 4#7 1#7) rfl,
    decodeEncodeRoundTrip _ (.oddHeader 0b101010#6) rfl, decodeEncodeRoundTrip _ (.chk2 0b1100#4) rfl⟩

end Sys2Proof

namespace Sys2Proof.Machine

/-! ### A request outside the table (30_encoding.md R94, R96) -/

theorem refuses_refuse (who : Issuer) (s : State) : Refuses who (.next (refuse who s)) s :=
  ⟨Reply.code badopCode, rfl, rfl⟩

theorem exec_portReserved_refuses (who : Issuer) (op : Byte) (s : State) :
    Refuses who (exec (.portReserved who op) s) s := refuses_refuse who s

/-- Settles O11: the request is PORT_RESERVED's, and PORT_RESERVED refuses at every state. -/
theorem unlistedOpIsRefused : Obligations.UnlistedOpIsRefused := by
  intro who r s hop
  rw [decodeRequest_of_not_mem hop]
  exact ⟨exec_portReserved_refuses who r.op s, exec_portReserved_refuses who r.op s⟩

end Sys2Proof.Machine
end

section
/-! PROOFS. What decode answers (O7), and the peeks (O40): the sections of a body, the data they hold, and the verdict
on them by byte and bit position. -/

namespace Sys2Proof.Machine

/-! ### Bytes of a body by position -/

theorem byteAt_eq_of_getElem? {b : List Byte} {i : Nat} {x : Byte} (h : b[i]? = some x) : byteAt b i = x := by
  rw [byteAt, List.getD_eq_getElem?_getD, h, Option.getD_some]

theorem getElem?_eq_some_byteAt {b : List Byte} {i : Nat} (h : i < b.length) : b[i]? = some (byteAt b i) := by
  rw [List.getElem?_eq_getElem h, byteAt_eq_of_getElem? (List.getElem?_eq_getElem h)]

@[simp] theorem byteAt_drop (b : List Byte) (n i : Nat) : byteAt (b.drop n) i = byteAt b (n + i) := by
  simp [byteAt]

theorem forall_mem_take_iff {b : List Byte} {n : Nat} (hn : n ≤ b.length) (p : Byte → Prop) :
    (∀ x ∈ b.take n, p x) ↔ ∀ i, i < n → p (byteAt b i) := by
  constructor
  · intro h i hi
    exact h _ (List.mem_iff_getElem?.2 ⟨i, by
      rw [List.getElem?_take_of_lt hi, getElem?_eq_some_byteAt (Nat.lt_of_lt_of_le hi hn)]⟩)
  · intro h x hx
    obtain ⟨i, hi, rfl⟩ := List.mem_take_iff_getElem.1 hx
    have hp := h i (Nat.lt_of_lt_of_le hi (Nat.min_le_left _ _))
    rwa [byteAt_eq_of_getElem? (List.getElem?_eq_getElem (Nat.lt_of_lt_of_le hi (Nat.min_le_right _ _)))] at hp

/-! ### The sections of a body (30_encoding.md R90, 40_codec.md R112, R113) -/

/-- The body has a section of `k` data bytes from index `i` of the data, its header byte at index `h`: the odd section,
or a group. -/
def IsSection (odd groups h i k : Nat) : Prop :=
  (odd ≠ 0 ∧ h = 7 ∧ i = 0 ∧ k = odd) ∨ ∃ g, g < groups ∧ h = firstGroup odd + 8 * g ∧ i = odd + 7 * g ∧ k = 7

/-- The data byte whose stored byte is `d`, at place `k` of the section with header byte `h` (R124). -/
def unstuffed (d h : Byte) (k : Nat) : Byte := (d &&& 0x7F#8) ||| ((h <<< (k + 1)) &&& 0x80#8)

theorem firstGroup_zero : firstGroup 0 = 7 := rfl

theorem firstGroup_pos {odd : Nat} (h : odd ≠ 0) : firstGroup odd = 8 + odd := if_neg h

theorem seven_le_firstGroup (odd : Nat) : 7 ≤ firstGroup odd := by
  unfold firstGroup
  split <;> omega

/-- A section stands between the header of the body and its trailer, and its data within the data. -/
theorem IsSection.bounds {odd groups h i k : Nat} (hs : IsSection odd groups h i k) :
    7 ≤ h ∧ h + k < firstGroup odd + 8 * groups ∧ i + k ≤ odd + 7 * groups := by
  have hbase := seven_le_firstGroup odd
  obtain ⟨hodd, rfl, rfl, rfl⟩ | ⟨g, hg, rfl, rfl, rfl⟩ := hs
  · rw [firstGroup_pos hodd]
    omega
  · omega

theorem IsSection.size_le {odd groups h i k : Nat} (hodd : odd ≤ 6) (hs : IsSection odd groups h i k) : k ≤ 7 := by
  obtain ⟨-, -, -, rfl⟩ | ⟨g, -, -, -, rfl⟩ := hs
  · omega
  · exact Nat.le_refl 7

/-- Of two different sections one stands before the other, in the body and in the data. -/
theorem IsSection.before_or_eq_or_after {odd groups h i k h' i' k' : Nat} (hs : IsSection odd groups h i k)
    (hs' : IsSection odd groups h' i' k') :
    (h + k < h' ∧ i + k ≤ i') ∨ (h' = h ∧ i' = i ∧ k' = k) ∨ (h' + k' < h ∧ i' + k' ≤ i) := by
  obtain ⟨hodd, rfl, rfl, rfl⟩ | ⟨g, -, rfl, rfl, rfl⟩ := hs <;>
    obtain ⟨hodd', rfl, rfl, rfl⟩ | ⟨g', -, rfl, rfl, rfl⟩ := hs'
  · exact .inr (.inl ⟨rfl, rfl, rfl⟩)
  · rw [firstGroup_pos hodd]
    omega
  · rw [firstGroup_pos hodd']
    omega
  · omega

/-- The first section starts right after the header, whether it is the odd section or a group. -/
theorem exists_first_section {odd groups : Nat} (h : 0 < odd + 7 * groups) :
    ∃ k, 0 < k ∧ IsSection odd groups 7 0 k := by
  by_cases hodd : odd = 0
  · subst hodd
    exact ⟨7, by omega, .inr ⟨0, by omega, rfl, rfl, rfl⟩⟩
  · exact ⟨odd, by omega, .inl ⟨hodd, rfl, rfl, rfl⟩⟩

/-- Every data byte is in a section. -/
theorem exists_section_of_index {odd groups m : Nat} (h : m < odd + 7 * groups) :
    ∃ hd i k j, IsSection odd groups hd i k ∧ j < k ∧ m = i + j := by
  by_cases hm : m < odd
  · exact ⟨7, 0, odd, m, .inl ⟨by omega, rfl, rfl, rfl⟩, hm, (Nat.zero_add m).symm⟩
  · exact ⟨_, _, 7, (m - odd) % 7, .inr ⟨(m - odd) / 7, by omega, rfl, rfl, rfl⟩, by omega, by omega⟩

/-- Every byte between the header and the trailer is the header byte or a stored byte of a section. -/
theorem exists_section_of_position {odd groups p : Nat} (hlo : 7 ≤ p) (hhi : p < firstGroup odd + 8 * groups) :
    ∃ h i k, IsSection odd groups h i k ∧ (p = h ∨ ∃ j, j < k ∧ p = h + 1 + j) := by
  by_cases hp : p < firstGroup odd
  · have hodd : odd ≠ 0 := by
      rintro rfl
      rw [firstGroup_zero] at hp
      omega
    rw [firstGroup_pos hodd] at hp
    refine ⟨7, 0, odd, .inl ⟨hodd, rfl, rfl, rfl⟩, ?_⟩
    by_cases h7 : p = 7
    · exact .inl h7
    · exact .inr ⟨p - 8, by omega, by omega⟩
  · refine ⟨_, _, 7, .inr ⟨(p - firstGroup odd) / 8, by omega, rfl, rfl, rfl⟩, ?_⟩
    by_cases h0 : (p - firstGroup odd) % 8 = 0
    · exact .inl (by omega)
    · exact .inr ⟨(p - firstGroup odd) % 8 - 1, by omega, by omega⟩

/-! ### The data of a body, section by section (40_codec.md R124) -/

/-- The data of a body is what its sections hold. -/
theorem bodyData_iff (b : List Byte) (odd groups : Nat) (data : List Byte) :
    BodyData b odd groups data ↔ data.length = odd + 7 * groups
      ∧ ∀ h i k, IsSection odd groups h i k → ∀ j, j < k →
        data[i + j]? = some (unstuffed (byteAt b (h + 1 + j)) (byteAt b h) j) := by
  refine and_congr_right fun _ => ⟨fun ⟨hodd, hgroup⟩ h i k hs j hj => ?_, fun hsec => ⟨fun k hk => ?_, ?_⟩⟩
  · obtain ⟨-, rfl, rfl, rfl⟩ | ⟨g, hg, rfl, rfl, rfl⟩ := hs
    · rw [Nat.zero_add]
      exact hodd j hj
    · exact hgroup g j hg hj
  · have hget := hsec 7 0 odd (.inl ⟨by omega, rfl, rfl, rfl⟩) k hk
    rwa [Nat.zero_add] at hget
  · exact fun g k hg hk => hsec _ _ 7 (.inr ⟨g, hg, rfl, rfl, rfl⟩) k hk

/-- A body has one data. -/
theorem BodyData.unique {b : List Byte} {odd groups : Nat} {data data' : List Byte}
    (h : BodyData b odd groups data) (h' : BodyData b odd groups data') : data = data' := by
  obtain ⟨hlen, hsec⟩ := (bodyData_iff _ _ _ _).1 h
  obtain ⟨hlen', hsec'⟩ := (bodyData_iff _ _ _ _).1 h'
  refine List.ext_getElem? fun m => ?_
  by_cases hm : m < odd + 7 * groups
  · obtain ⟨hd, i, k, j, hs, hj, rfl⟩ := exists_section_of_index hm
    rw [hsec hd i k hs j hj, hsec' hd i k hs j hj]
  · rw [List.getElem?_eq_none (by omega), List.getElem?_eq_none (by omega)]

@[simp] theorem length_unstuff (h : Byte) (k : Nat) (bs : List Byte) : (unstuff h k bs).length = bs.length := by
  induction bs generalizing k with
  | nil => rfl
  | cons b bs ih => rw [unstuff, List.length_cons, ih, List.length_cons]

theorem getElem?_unstuff (h : Byte) (k j : Nat) (bs : List Byte) :
    (unstuff h k bs)[j]? = bs[j]?.map (fun d => unstuffed d h (k + j)) := by
  induction bs generalizing k j with
  | nil => rfl
  | cons b bs ih =>
    cases j with
    | zero => rfl
    | succ j =>
      rw [unstuff, List.getElem?_cons_succ, List.getElem?_cons_succ, ih, show k + 1 + j = k + (j + 1) by omega]

/-- Byte `j` of the section whose `n` stored bytes start at index `i`. -/
theorem getElem?_unstuff_section {b : List Byte} {h : Byte} {i n j : Nat} (hj : j < n) (hlen : i + n ≤ b.length) :
    (unstuff h 0 ((b.drop i).take n))[j]? = some (unstuffed (byteAt b (i + j)) h j) := by
  rw [getElem?_unstuff, List.getElem?_take_of_lt hj, List.getElem?_drop, getElem?_eq_some_byteAt (by omega),
    Option.map_some, Nat.zero_add]

theorem length_unstuffGroups {g : Nat} {bs : List Byte} (h : 8 * g ≤ bs.length) :
    (unstuffGroups g bs).length = 7 * g := by
  induction g generalizing bs with
  | zero => rfl
  | succ g ih =>
    rw [unstuffGroups, List.length_append, ih (by rw [List.length_drop]; omega), length_unstuff, List.length_take,
      List.length_drop]
    omega

theorem getElem?_unstuffGroups {groups g k : Nat} {bs : List Byte} (hlen : 8 * groups ≤ bs.length)
    (hg : g < groups) (hk : k < 7) :
    (unstuffGroups groups bs)[7 * g + k]? = some (unstuffed (byteAt bs (8 * g + 1 + k)) (byteAt bs (8 * g)) k) := by
  induction groups generalizing g bs with
  | zero => omega
  | succ groups ih =>
    have hfirst : (unstuff (byteAt bs 0) 0 ((bs.drop 1).take 7)).length = 7 := by
      rw [length_unstuff, List.length_take, List.length_drop]
      omega
    rw [unstuffGroups]
    cases g with
    | zero =>
      rw [List.getElem?_append_left (by omega), show 7 * 0 + k = k by omega,
        getElem?_unstuff_section hk (by omega), show 8 * 0 + 1 + k = 1 + k by omega]
    | succ g =>
      rw [List.getElem?_append_right (by omega), hfirst, show 7 * (g + 1) + k - 7 = 7 * g + k by omega,
        ih (by rw [List.length_drop]; omega) (by omega), byteAt_drop, byteAt_drop,
        show 8 + (8 * g + 1 + k) = 8 * (g + 1) + 1 + k by omega, show 8 + 8 * g = 8 * (g + 1) by omega]

/-- Step 3 of decode reconstructs the data of the body. -/
theorem bodyData_reconstruct {b : List Byte} {odd groups : Nat} (h : firstGroup odd + 8 * groups ≤ b.length) :
    BodyData b odd groups (reconstruct b odd groups) := by
  have hoddLen : (unstuff (byteAt b 7) 0 ((b.drop 8).take odd)).length = odd := by
    rw [length_unstuff, List.length_take, List.length_drop]
    by_cases hodd : odd = 0
    · omega
    · rw [firstGroup_pos hodd] at h
      omega
  have hgroups : 8 * groups ≤ (b.drop (firstGroup odd)).length := by
    rw [List.length_drop]
    omega
  have hform : reconstruct b odd groups
      = unstuff (byteAt b 7) 0 ((b.drop 8).take odd) ++ unstuffGroups groups (b.drop (firstGroup odd)) := rfl
  rw [hform, bodyData_iff]
  refine ⟨by rw [List.length_append, hoddLen, length_unstuffGroups hgroups], fun hd i k hs j hj => ?_⟩
  obtain ⟨hodd, rfl, rfl, rfl⟩ | ⟨g, hg, rfl, rfl, rfl⟩ := hs
  · rw [firstGroup_pos hodd] at h
    rw [Nat.zero_add, List.getElem?_append_left (by omega), getElem?_unstuff_section hj (by omega)]
  · rw [List.getElem?_append_right (by omega), hoddLen, show odd + 7 * g + j - odd = 7 * g + j by omega,
      getElem?_unstuffGroups hgroups hg hj, byteAt_drop, byteAt_drop,
      show firstGroup odd + (8 * g + 1 + j) = firstGroup odd + 8 * g + 1 + j by omega]

/-! ### The structural checks (40_codec.md R121, R122) -/

theorem structureOf_ok_iff {P : Params} {b : List Byte} {odd groups : Nat} :
    structureOf P b = .ok (odd, groups) ↔
      (countOf (byteAt b 5) = odd ∧ countOf (byteAt b 6) = groups) ∧ odd ≤ 6 ∧ odd + 7 * groups ≤ maxPayload P
        ∧ firstGroup odd + 8 * groups + 3 ≤ b.length := by
  have hlen : bodyLen (countOf (byteAt b 5)) (countOf (byteAt b 6))
      = firstGroup (countOf (byteAt b 5)) + 8 * countOf (byteAt b 6) + 3 := rfl
  have hbase := seven_le_firstGroup (countOf (byteAt b 5))
  unfold structureOf
  rw [hlen]
  constructor
  · intro h
    split_ifs at h
    obtain ⟨rfl, rfl⟩ := Prod.mk.inj (Except.ok.inj h)
    omega
  · rintro ⟨⟨rfl, rfl⟩, hodd, hmax, hfit⟩
    rw [if_neg (by omega), if_neg (by omega), if_neg (by omega), if_neg (by omega)]

/-! ### The verdict (40_codec.md R120, R126 to R128, R131) -/

/-- The received checksum of a body with the given counts (R120). -/
def rxChk (b : List Byte) (odd groups : Nat) : Byte :=
  mergeChk (byteAt b (firstGroup odd + 8 * groups)) (byteAt b (firstGroup odd + 8 * groups + 1))

theorem frameOk_iff {P : Params} {b : List Byte} {odd groups : Nat} (h : firstGroup odd + 8 * groups ≤ b.length) :
    frameOk P b odd groups = true ↔ P.strictFraming = false ∨ WellFramed b odd groups := by
  have hhigh := forall_mem_take_iff h (fun x => x.getLsbD 7 = true)
  have hbase : groupBase odd = firstGroup odd := rfl
  simp only [frameOk, WellFramed, endByte, hbase, Bool.or_eq_true, Bool.and_eq_true, Bool.not_eq_true', beq_iff_eq,
    List.all_eq_true, highBit, hhigh, or_iff_not_imp_left, ne_eq, and_assoc]

theorem quirkHit_iff (P : Params) (c : Byte) (v : Bool) (rx : Byte) (n : Nat) :
    quirkHit P c v rx n = true ↔
      P.quirkEnable = true ∧ v = true ∧ rx = c ∧ P.quirkLenMin ≤ n ∧ n ≤ P.quirkLenMax := by
  simp only [quirkHit, Bool.and_eq_true, beq_iff_eq, decide_eq_true_eq, and_assoc]

theorem decodeBody_of_error {P : Params} {b : List Byte} {e : Err} (h : structureOf P b = .error e) (c : Byte)
    (v : Bool) : decodeBody P c v b = .bad e none := by
  rw [decodeBody, h]

theorem decodeBody_of_ok {P : Params} {b : List Byte} {odd groups : Nat} (h : structureOf P b = .ok (odd, groups))
    (c : Byte) (v : Bool) :
    decodeBody P c v b =
      if !(xorBytes (reconstruct b odd groups) ^^^ xorBytes (b.take 7) == rxChk b odd groups
          || quirkHit P c v (rxChk b odd groups) (odd + 7 * groups)) then .bad .checksum (some (rxChk b odd groups))
      else if !frameOk P b odd groups then .bad .framing (some (rxChk b odd groups))
      else .good { dest := byteAt b 0, src := byteAt b 1, ptype := byteAt b 2, aux := byteAt b 3, stat := byteAt b 4,
                   data := reconstruct b odd groups } (rxChk b odd groups) := by
  rw [decodeBody, h]
  rfl

/-- Steps 4 and 5 give the verdict on the data of a body that passes the structural checks. -/
theorem decodeBody_checkedVerdict {P : Params} {b data : List Byte} {odd groups : Nat}
    (h : structureOf P b = .ok (odd, groups)) (hdata : BodyData b odd groups data) (c : Byte) (v : Bool) :
    CheckedVerdict P c v b odd groups data (rxChk b odd groups) (decodeBody P c v b) := by
  obtain ⟨-, -, -, hlen⟩ := structureOf_ok_iff.1 h
  obtain rfl : reconstruct b odd groups = data := (bodyData_reconstruct (by omega)).unique hdata
  have hframe := frameOk_iff (P := P) (b := b) (odd := odd) (groups := groups) (by omega)
  have hquirk := quirkHit_iff P c v (rxChk b odd groups) (odd + 7 * groups)
  rw [← hdata.1] at hquirk
  have hdecode := decodeBody_of_ok h c v
  refine ⟨rfl, ?_⟩
  rw [← hdata.1] at hdecode
  simp only [← hquirk, hdecode]
  split
  · next haccept =>
    rw [if_neg (by simpa [or_iff_not_imp_left] using haccept)]
    constructor
    · rintro ⟨hstrict, hbad⟩
      rw [if_pos]
      simpa [hstrict] using hframe.not.2 (by simp [hstrict, hbad])
    · intro hgood
      rw [if_neg (by simpa using hframe.2 hgood)]
  · next hreject => rw [if_pos (by simpa using hreject)]

/-- decode answers the verdict of the rules on any bytes. -/
theorem decodeBody_verdict (P : Params) (c : Byte) (v : Bool) (b : List Byte) :
    Verdict P c v b (decodeBody P c v b) := by
  have hlen : bodyLen (countOf (byteAt b 5)) (countOf (byteAt b 6))
      = firstGroup (countOf (byteAt b 5)) + 8 * countOf (byteAt b 6) + 3 := rfl
  rw [Verdict, ← countOf, ← countOf]
  beta_reduce
  split_ifs with hshort hodd hmax hcut
  · exact decodeBody_of_error (if_pos hshort) c v
  · exact decodeBody_of_error (by rw [structureOf, if_neg hshort, if_pos hodd]) c v
  · exact decodeBody_of_error (by rw [structureOf, if_neg hshort, if_neg hodd, if_pos hmax]) c v
  · exact decodeBody_of_error (by rw [structureOf, if_neg hshort, if_neg hodd, if_neg hmax, hlen, if_pos hcut]) c v
  · have hok := structureOf_ok_iff.2 ⟨⟨rfl, rfl⟩, Nat.not_lt.1 hodd, Nat.not_lt.1 hmax, Nat.not_lt.1 hcut⟩
    have hdata := bodyData_reconstruct (Nat.le_of_add_right_le (Nat.not_lt.1 hcut))
    exact ⟨_, _, hdata, decodeBody_checkedVerdict hok hdata c v⟩

/-! ### The DECODE request (40_codec.md R132) -/

theorem runDecode_eq (b : List Byte) (s : State) :
    runDecode b s = (decodeBody s.params s.lastChk s.lastChkV b,
      afterDecode (decodeBody s.params s.lastChk s.lastChkV b).rx s) := by
  unfold runDecode
  cases h : (decodeBody s.params s.lastChk s.lastChkV b).rx <;> simp only [h, afterDecode]

/-- Settles O7: the verdict is the rules', and DECODE replies it. -/
theorem decodeRepliesVerdict : Obligations.DecodeRepliesVerdict := by
  refine ⟨decodeBody_verdict, fun who n data s hlen => ?_⟩
  have hexec : exec (.decodePacket who n data) s = execDecodePacket who n data s := rfl
  rw [hexec, execDecodePacket, runDecode_eq]
  by_cases hfit : n.toNat ≤ s.params.bufLen
  · rw [if_pos hfit, if_neg (by omega)]
    cases decodeBody s.params s.lastChk s.lastChkV data with
    | good rec rx => exact ⟨_, ⟨rfl, rfl, rfl, rfl⟩, rfl⟩
    | bad e rx => exact ⟨_, ⟨rfl, rfl, rfl, rfl⟩, rfl⟩
  · rw [if_neg hfit, if_pos (by omega)]
    exact ⟨Reply.code badopCode, rfl, rfl⟩

/-! ### The peeks (40_codec.md R133, R134) -/

theorem peekOpcode_of_counts {b : List Byte} (hodd : countOf (byteAt b 5) ≤ 6)
    (hn : 0 < countOf (byteAt b 5) + 7 * countOf (byteAt b 6)) (hlen : 9 ≤ b.length) :
    peekOpcode b = some (unstuffed (byteAt b 8) (byteAt b 7) 0) := by
  unfold peekOpcode
  rw [if_neg (by omega), if_neg (by omega), if_neg (by omega), if_neg (by omega)]
  rfl

theorem peekOpcode_of_no_data {b : List Byte} (hn : countOf (byteAt b 5) + 7 * countOf (byteAt b 6) = 0) :
    peekOpcode b = none := by
  unfold peekOpcode
  split_ifs <;> rfl

/-- Settles O40: the first section's header is at index 7 and its first stored byte at index 8, whether it is the odd
section or a group. -/
theorem peekAgreesWithDecode : Obligations.PeekAgreesWithDecode := by
  refine fun P b odd groups h => ⟨?_, rfl⟩
  obtain ⟨⟨rfl, rfl⟩, hodd, -, hlen⟩ := structureOf_ok_iff.1 h
  obtain ⟨hsize, hsec⟩ := (bodyData_iff _ _ _ _).1 (bodyData_reconstruct (Nat.le_of_add_right_le hlen))
  rw [List.head?_eq_getElem?]
  by_cases hn : countOf (byteAt b 5) + 7 * countOf (byteAt b 6) = 0
  · rw [peekOpcode_of_no_data hn, List.getElem?_eq_none (by omega)]
  · obtain ⟨k, hk, hs⟩ := exists_first_section (Nat.pos_of_ne_zero hn)
    have hend := hs.bounds
    rw [peekOpcode_of_counts hodd (by omega) (by omega)]
    exact (hsec 7 0 k hs 0 hk).symm

end Sys2Proof.Machine
end

section
/-! PROOFS. What encode makes decodes to what was sent (O37), and ENCODE replies it (O6). -/

namespace Sys2Proof.Machine

/-! ### The ENCODE request (40_codec.md R117, R118) -/

/-- Settles O6. The reply's data is the packet of R118 written out, and RN its length. -/
theorem encodeRepliesPacket : Obligations.EncodeRepliesPacket := by
  intro who src ptype status n data s hlen
  have hexec : exec (.encodePacket who src ptype status n data) s
      = execEncodePacket who src ptype status n data s := rfl
  rw [hexec, execEncodePacket, if_neg (not_not.2 hlen)]
  by_cases hfit : n.toNat ≤ maxPayload s.params
  · rw [if_pos hfit, if_neg (Nat.not_lt.2 hfit), ← length_encodeRaw s.params src ptype status]
    exact ⟨_, ⟨rfl, rfl, rfl⟩, rfl⟩
  · rw [if_neg hfit, if_pos (Nat.lt_of_not_le hfit)]
    exact ⟨_, ⟨rfl, rfl⟩, rfl⟩

/-! ### Stuffing and unstuffing one byte -/

theorem getLsbD_0x7F (i : Nat) : (0x7F#8).getLsbD i = decide (i < 7) := by
  rw [show (0x7F#8 : Byte) = BitVec.ofNat 8 (2 ^ 7 - 1) from rfl, BitVec.getLsbD_ofNat, Nat.testBit_two_pow_sub_one]
  by_cases h : i < 7
  · simp [h, Nat.lt_trans h (by decide : 7 < 8)]
  · simp [h]

/-- A data byte has its MSB from the section's header byte and its other bits from its stored byte. -/
theorem getLsbD_unstuffed (d h : Byte) {i j : Nat} (hi : i < 8) (hj : j < 7) :
    (unstuffed d h j).getLsbD i = if i = 7 then h.getLsbD (6 - j) else d.getLsbD i := by
  rw [unstuffed, BitVec.getLsbD_or, BitVec.getLsbD_and, BitVec.getLsbD_and, getLsbD_0x7F, getLsbD_0x80,
    BitVec.getLsbD_shiftLeft]
  split
  · next h7 =>
    subst h7
    simp [show ¬ 7 < j + 1 by omega, show 7 - (j + 1) = 6 - j by omega]
  · next h7 => simp [h7, show i < 7 by omega]

theorem unstuffed_of_stuffed {x h : Byte} {j : Nat} (hj : j < 7) (hmsb : h.getLsbD (6 - j) = x.getLsbD 7) :
    unstuffed (x ||| 0x80#8) h j = x := by
  refine BitVec.eq_of_getLsbD_eq fun i hi => ?_
  rw [getLsbD_unstuffed _ _ hi hj, BitVec.getLsbD_or, getLsbD_0x80]
  split
  · next h7 => rw [hmsb, h7]
  · next h7 => simp [h7]

theorem mergeChk_split (c : Byte) : mergeChk (c ||| 0xAA#8) ((c >>> 1) ||| 0xAA#8) = c := by revert c; decide

theorem countOf_countByte {n : Nat} (h : n < 128) : countOf (0x80#8 ||| BitVec.ofNat 8 n) = n := by
  revert n; decide

/-! ### A body that decodes (40_codec.md R124 to R128) -/

/-- A body with the given counts holds the data, its checksum matches and it is well framed. -/
structure Intact (b : List Byte) (odd groups : Nat) (data : List Byte) : Prop where
  holds : BodyData b odd groups data
  checksum : xorBytes data ^^^ xorBytes (b.take 7) = rxChk b odd groups
  framed : WellFramed b odd groups

/-- An intact body decodes to its data, whatever the shim and the framing parameter. -/
theorem Intact.decodeBody_good {P : Params} {b data : List Byte} {odd groups : Nat} (hb : Intact b odd groups data)
    (h : structureOf P b = .ok (odd, groups)) (c : Byte) (v : Bool) :
    decodeBody P c v b = .good { dest := byteAt b 0, src := byteAt b 1, ptype := byteAt b 2, aux := byteAt b 3,
                                 stat := byteAt b 4, data := data } (rxChk b odd groups) := by
  obtain ⟨-, hverdict⟩ := decodeBody_checkedVerdict h hb.holds c v
  rw [if_pos (.inl hb.checksum)] at hverdict
  exact hverdict.2 (.inr hb.framed)

/-! ### The body of an encoded packet, whatever follows it (40_codec.md R122) -/

section EncodedBody

variable {hdr data : List Byte} (after : List Byte)

theorem length_lt_of_byteAt_high {b : List Byte} {i : Nat} (h : (byteAt b i).getLsbD 7 = true) : i < b.length := by
  by_contra hlen
  rw [byteAt, List.getD_eq_default _ _ (Nat.not_lt.1 hlen)] at h
  cases h

theorem byteAt_append_left {b : List Byte} {i : Nat} (h : i < b.length) : byteAt (b ++ after) i = byteAt b i :=
  List.getD_append _ _ _ _ h

theorem SectionAt.append {b : List Byte} {h i k : Nat} (hs : SectionAt b data h i k) :
    SectionAt (b ++ after) data h i k := by
  obtain ⟨hhigh, hmsb, hbytes⟩ := hs
  have hlt := length_lt_of_byteAt_high hhigh
  rw [SectionAt, byteAt_append_left after hlt]
  refine ⟨hhigh, hmsb, fun j hj => ?_⟩
  obtain ⟨hin, -⟩ := List.getElem?_eq_some_iff.1 (hbytes j hj)
  rw [List.getElem?_append_left hin, hbytes j hj]

theorem length_hdr_stuff (hhdr : hdr.length = 7) :
    (hdr ++ stuff data).length = firstGroup (data.length % 7) + 8 * (data.length / 7) := by
  rw [List.length_append, length_stuff, hhdr, firstGroup]
  split <;> omega

theorem length_bodyOf (hhdr : hdr.length = 7) :
    (bodyOf hdr data).length = firstGroup (data.length % 7) + 8 * (data.length / 7) + 3 := by
  rw [bodyOf, List.length_append, length_hdr_stuff hhdr]
  rfl

theorem take_seven_bodyOf_append (hhdr : hdr.length = 7) : (bodyOf hdr data ++ after).take 7 = hdr := by
  have hlen := length_bodyOf (data := data) hhdr
  have hbase := seven_le_firstGroup (data.length % 7)
  rw [List.take_append_of_le_length (by omega), bodyOf_take_seven hhdr]

/-- Every section of the body holds its data bytes. -/
theorem sectionAt_bodyOf (hhdr : hdr.length = 7) {h i k : Nat}
    (hs : IsSection (data.length % 7) (data.length / 7) h i k) : SectionAt (bodyOf hdr data ++ after) data h i k := by
  obtain ⟨hodd, rfl, rfl, rfl⟩ | ⟨g, hg, rfl, rfl, rfl⟩ := hs
  · exact (sectionAt_odd hhdr hodd).append after
  · exact (sectionAt_group hhdr hg).append after

/-- The data of the body is the data it was made of. -/
theorem bodyData_bodyOf (hhdr : hdr.length = 7) :
    BodyData (bodyOf hdr data ++ after) (data.length % 7) (data.length / 7) data := by
  refine (bodyData_iff _ _ _ _).2 ⟨(Nat.mod_add_div _ _).symm, fun h i k hs j hj => ?_⟩
  have hk : k ≤ 7 := hs.size_le (by omega)
  have hend := hs.bounds
  obtain ⟨-, hmsb, hbytes⟩ := sectionAt_bodyOf after hhdr hs
  have hbit : (byteAt (bodyOf hdr data ++ after) h).getLsbD (6 - j) = (byteAt data (i + j)).getLsbD 7 := by
    rw [hmsb j (by omega), decide_eq_true hj, Bool.true_and]
  rw [byteAt_eq_of_getElem? (hbytes j hj), unstuffed_of_stuffed (by omega) hbit,
    getElem?_eq_some_byteAt (by omega)]

theorem byteAt_trailer (hhdr : hdr.length = 7) (i : Nat) :
    byteAt (bodyOf hdr data ++ after) (firstGroup (data.length % 7) + 8 * (data.length / 7) + i)
      = byteAt (trailer (xorBytes data ^^^ xorBytes hdr) ++ after) i := by
  rw [bodyOf, List.append_assoc, ← length_hdr_stuff hhdr, byteAt_append_add]

/-- The received checksum is the one computed from the data and the header. -/
theorem rxChk_bodyOf (hhdr : hdr.length = 7) :
    rxChk (bodyOf hdr data ++ after) (data.length % 7) (data.length / 7) = xorBytes data ^^^ xorBytes hdr :=
  calc rxChk (bodyOf hdr data ++ after) (data.length % 7) (data.length / 7)
      = mergeChk (byteAt (trailer (xorBytes data ^^^ xorBytes hdr) ++ after) 0)
          (byteAt (trailer (xorBytes data ^^^ xorBytes hdr) ++ after) 1) :=
        congrArg₂ mergeChk (byteAt_trailer after hhdr 0) (byteAt_trailer after hhdr 1)
    _ = _ := mergeChk_split _

/-- The unused bits of an odd header are 0. -/
theorem SectionAt.unused_bits {b : List Byte} {h i k : Nat} (hs : SectionAt b data h i k) :
    byteAt b h &&& (0x7F#8 >>> k) = 0#8 := by
  obtain ⟨-, hmsb, -⟩ := hs
  refine BitVec.eq_of_getLsbD_eq fun r hr => ?_
  rw [BitVec.getLsbD_and, BitVec.getLsbD_ushiftRight, getLsbD_0x7F, BitVec.getLsbD_zero]
  by_cases hunused : k + r < 7
  · have hbit := hmsb (6 - r) (by omega)
    rw [show 6 - (6 - r) = r by omega, decide_eq_false (by omega), Bool.false_and] at hbit
    rw [hbit, Bool.false_and]
  · rw [decide_eq_false hunused, Bool.and_false]

theorem wellFramed_bodyOf (hhdr : hdr.length = 7) (hhigh : ∀ x ∈ hdr, x.getLsbD 7 = true) :
    WellFramed (bodyOf hdr data ++ after) (data.length % 7) (data.length / 7) := by
  have hlen := length_hdr_stuff (data := data) hhdr
  have hmask (c : Byte) : (c ||| 0xAA#8) &&& 0xAA#8 = 0xAA#8 := by revert c; decide
  refine ⟨?_, fun hodd => ?_, ?_, ?_, ?_⟩
  · have hin : (hdr ++ stuff data).length ≤ (bodyOf hdr data ++ after).length := by
      rw [hlen, List.length_append, length_bodyOf hhdr]
      omega
    rw [← hlen]
    refine (forall_mem_take_iff hin fun x => x.getLsbD 7 = true).1 fun x hx => ?_
    rw [bodyOf, List.append_assoc, List.take_left] at hx
    obtain hx | hx := List.mem_append.1 hx
    · exact hhigh x hx
    · exact stuff_high hx
  · exact (sectionAt_bodyOf after hhdr (.inl ⟨hodd, rfl, rfl, rfl⟩)).unused_bits
  · exact (congrArg (· &&& 0xAA#8) (byteAt_trailer after hhdr 0)).trans (hmask _)
  · exact (congrArg (· &&& 0xAA#8) (byteAt_trailer after hhdr 1)).trans (hmask _)
  · exact byteAt_trailer after hhdr 2

theorem intact_bodyOf (hhdr : hdr.length = 7) (hhigh : ∀ x ∈ hdr, x.getLsbD 7 = true) :
    Intact (bodyOf hdr data ++ after) (data.length % 7) (data.length / 7) data where
  holds := bodyData_bodyOf after hhdr
  checksum := by rw [take_seven_bodyOf_append after hhdr, rxChk_bodyOf after hhdr]
  framed := wellFramed_bodyOf after hhdr hhigh

end EncodedBody

/-! ### Decode inverts encode (40_codec.md R135) -/

theorem encodeRaw_structureOf {P : Params} {data : List Byte} (hdata : data.length ≤ maxPayload P)
    (src ptype status : Byte) (after : List Byte) :
    structureOf P ((encodeRaw P src ptype status data).drop 7 ++ after)
      = .ok (data.length % 7, data.length / 7) := by
  have hmax : maxPayload P ≤ 895 := largestFitting_le _ _
  have hlen := length_bodyOf (data := data) (length_headerBytes P src ptype status data.length)
  have hodd : countOf (0x80#8 ||| BitVec.ofNat 8 (data.length % 7)) = data.length % 7 := countOf_countByte (by omega)
  have hgroups : countOf (0x80#8 ||| BitVec.ofNat 8 (data.length / 7)) = data.length / 7 :=
    countOf_countByte (by omega)
  rw [encodeRaw_drop_seven]
  exact structureOf_ok_iff.2 ⟨⟨hodd, hgroups⟩, by omega, by omega, by rw [List.length_append]; omega⟩

theorem encodeRaw_intact (P : Params) (src ptype status : Byte) (data after : List Byte) :
    Intact ((encodeRaw P src ptype status data).drop 7 ++ after) (data.length % 7) (data.length / 7) data :=
  intact_bodyOf after (length_headerBytes P src ptype status data.length) fun _ => headerBytes_high

/-- Settles O37: the encoded body passes the structural checks and is intact, whatever follows it. -/
theorem decodeInvertsEncode : Obligations.DecodeInvertsEncode :=
  fun P src ptype status data after chk chkV hdata =>
    ⟨_, (encodeRaw_intact P src ptype status data after).decodeBody_good
      (encodeRaw_structureOf hdata src ptype status after) chk chkV⟩

end Sys2Proof.Machine
end

section
/-! PROOFS. A flip of one bit of an encoded body, outside the count bytes, is caught (O38): it changes the checksum, or
it breaks a fixed bit. -/

namespace Sys2Proof.Machine

/-! ### A body that fails (40_codec.md R126 to R128) -/

/-- The body is not well framed, or the checksum of its data does not match. -/
def FailsChecks (b : List Byte) (odd groups : Nat) : Prop :=
  ¬WellFramed b odd groups
    ∨ ∃ data, BodyData b odd groups data ∧ xorBytes data ^^^ xorBytes (b.take 7) ≠ rxChk b odd groups

/-- With strict framing and the shim off, such a body is refused after the structural checks. -/
theorem FailsChecks.decodeBody_bad {P : Params} {b : List Byte} {odd groups : Nat} (hb : FailsChecks b odd groups)
    (h : structureOf P b = .ok (odd, groups)) (hstrict : P.strictFraming = true) (hshim : P.quirkEnable = false)
    (c : Byte) (v : Bool) : ∃ e rx, decodeBody P c v b = .bad e (some rx) := by
  obtain ⟨-, -, -, hlen⟩ := structureOf_ok_iff.1 h
  obtain hframe | ⟨data, hdata, hchk⟩ := hb
  · obtain ⟨-, hverdict⟩ := decodeBody_checkedVerdict h (bodyData_reconstruct (by omega)) c v
    split at hverdict
    · exact ⟨_, _, hverdict.1 ⟨hstrict, hframe⟩⟩
    · exact ⟨_, _, hverdict⟩
  · obtain ⟨-, hverdict⟩ := decodeBody_checkedVerdict h hdata c v
    rw [if_neg (by simp [hchk, hshim])] at hverdict
    exact ⟨_, _, hverdict⟩

/-! ### The checksum is linear -/

theorem xor_ne_self {x e : Byte} (he : e ≠ 0#8) : x ^^^ e ≠ x := fun h =>
  he ((BitVec.xor_right_inj x).1 (h.trans BitVec.xor_zero.symm))

/-- A change `e` of a byte that leaves its bits under a mask is outside the mask. -/
theorem and_eq_zero_of_xor_and {x e m : Byte} (h : (x ^^^ e) &&& m = x &&& m) : e &&& m = 0#8 := by
  refine BitVec.eq_of_getLsbD_eq fun i _ => ?_
  have hbit := congrArg (fun y : Byte => y.getLsbD i) h
  simp only [BitVec.getLsbD_and, BitVec.getLsbD_xor] at hbit
  rw [BitVec.getLsbD_and, BitVec.getLsbD_zero]
  revert hbit
  cases x.getLsbD i <;> cases e.getLsbD i <;> cases m.getLsbD i <;> decide

theorem xorBytes_set {l : List Byte} {m : Nat} (hm : m < l.length) (e : Byte) :
    xorBytes (l.set m (byteAt l m ^^^ e)) = xorBytes l ^^^ e := by
  induction l generalizing m with
  | nil => cases hm
  | cons x l ih =>
    cases m with
    | zero =>
      rw [List.set_cons_zero, byteAt_cons_zero, xorBytes, xorBytes]
      ac_rfl
    | succ m =>
      rw [List.set_cons_succ, byteAt_cons_succ, xorBytes, xorBytes, ih (Nat.lt_of_succ_lt_succ hm), BitVec.xor_assoc]

theorem unstuffed_xor (d d' h h' : Byte) {j : Nat} (hj : j < 7) :
    unstuffed (d ^^^ d') (h ^^^ h') j = unstuffed d h j ^^^ unstuffed d' h' j := by
  refine BitVec.eq_of_getLsbD_eq fun i hi => ?_
  rw [BitVec.getLsbD_xor, getLsbD_unstuffed _ _ hi hj, getLsbD_unstuffed _ _ hi hj, getLsbD_unstuffed _ _ hi hj]
  split <;> exact BitVec.getLsbD_xor

/-- The merged checksum has its even bits from the first trailer byte and its odd bits from the second (R120). -/
theorem getLsbD_mergeChk (c d : Byte) {i : Nat} (hi : i < 8) :
    (mergeChk c d).getLsbD i = if i % 2 = 0 then c.getLsbD i else d.getLsbD (i - 1) := by
  interval_cases i <;> simp [mergeChk]

theorem mergeChk_xor (c d c' d' : Byte) : mergeChk (c ^^^ c') (d ^^^ d') = mergeChk c d ^^^ mergeChk c' d' := by
  refine BitVec.eq_of_getLsbD_eq fun i hi => ?_
  rw [BitVec.getLsbD_xor, getLsbD_mergeChk _ _ hi, getLsbD_mergeChk _ _ hi, getLsbD_mergeChk _ _ hi]
  split <;> exact BitVec.getLsbD_xor

/-! ### Flipping one bit (40_codec.md R136) -/

section Flip

variable {b data : List Byte} {odd groups k : Nat}

/-- What the flip adds to byte `i` of the body. -/
def flipMask (k i : Nat) : Byte := if i = k / 8 then 1#8 <<< (k % 8) else 0#8

theorem flipMask_at {i : Nat} (h : i = k / 8) : flipMask k i = 1#8 <<< (k % 8) := if_pos h

theorem flipMask_off {i : Nat} (h : i ≠ k / 8) : flipMask k i = 0#8 := if_neg h

theorem single_bit_ne_zero (k : Nat) : 1#8 <<< (k % 8) ≠ 0#8 := by
  have h : ∀ r < 8, 1#8 <<< r ≠ 0#8 := by decide
  exact h _ (Nat.mod_lt _ (by decide))

theorem length_flipBit (b : List Byte) (k : Nat) : (flipBit b k).length = b.length := List.length_set

theorem byteAt_flipBit (hk : k / 8 < b.length) (i : Nat) : byteAt (flipBit b k) i = byteAt b i ^^^ flipMask k i := by
  by_cases h : i = k / 8
  · rw [flipMask_at h, h]
    exact byteAt_eq_of_getElem? (by rw [flipBit, List.getElem?_set_self hk])
  · rw [flipMask_off h, BitVec.xor_zero, byteAt, byteAt, flipBit, List.getD_eq_getElem?_getD,
      List.getElem?_set_ne (Ne.symm h), List.getD_eq_getElem?_getD]

theorem xorBytes_take_flipBit (n : Nat) (hk : k / 8 < b.length) :
    xorBytes ((flipBit b k).take n) = xorBytes (b.take n) ^^^ (if k / 8 < n then 1#8 <<< (k % 8) else 0#8) := by
  split
  · next hn =>
    have hbyte : byteAt b (k / 8) = byteAt (b.take n) (k / 8) :=
      (byteAt_eq_of_getElem? (by rw [List.getElem?_take_of_lt hn, getElem?_eq_some_byteAt hk])).symm
    rw [flipBit, List.take_set, hbyte, xorBytes_set (by rw [List.length_take]; omega)]
  · next hn => rw [flipBit, List.take_set_of_le (Nat.not_lt.1 hn), BitVec.xor_zero]

theorem rxChk_flipBit (hk : k / 8 < b.length) :
    rxChk (flipBit b k) odd groups = rxChk b odd groups
      ^^^ mergeChk (flipMask k (firstGroup odd + 8 * groups)) (flipMask k (firstGroup odd + 8 * groups + 1)) := by
  rw [rxChk, byteAt_flipBit hk, byteAt_flipBit hk, mergeChk_xor, rxChk]

theorem rxChk_flipBit_before (hk : k / 8 < b.length) (hpos : k / 8 < firstGroup odd + 8 * groups) :
    rxChk (flipBit b k) odd groups = rxChk b odd groups := by
  have hzero : mergeChk 0#8 0#8 = 0#8 := rfl
  rw [rxChk_flipBit hk, flipMask_off (by omega), flipMask_off (by omega), hzero, BitVec.xor_zero]

/-- A flip of no count byte changes no structural check. -/
theorem structureOf_flipBit {P : Params} (h : structureOf P b = .ok (odd, groups)) (hk : k / 8 < b.length)
    (h5 : k / 8 ≠ 5) (h6 : k / 8 ≠ 6) : structureOf P (flipBit b k) = .ok (odd, groups) := by
  rw [structureOf_ok_iff] at h ⊢
  rwa [byteAt_flipBit hk, byteAt_flipBit hk, flipMask_off h5.symm, flipMask_off h6.symm, BitVec.xor_zero,
    BitVec.xor_zero, length_flipBit]

/-- What the flip adds to a data byte. -/
theorem unstuffed_flipBit (hk : k / 8 < b.length) (h : Nat) {j : Nat} (hj : j < 7) :
    unstuffed (byteAt (flipBit b k) (h + 1 + j)) (byteAt (flipBit b k) h) j
      = unstuffed (byteAt b (h + 1 + j)) (byteAt b h) j ^^^ unstuffed (flipMask k (h + 1 + j)) (flipMask k h) j := by
  rw [byteAt_flipBit hk, byteAt_flipBit hk, unstuffed_xor _ _ _ _ hj]

theorem unstuffed_zero (j : Nat) : unstuffed 0#8 0#8 j = 0#8 := by simp [unstuffed]

/-! #### A flip in the data's own bits -/

/-- One data byte of a body differs, and no other. -/
theorem BodyData.set {b' : List Byte} {m : Nat} {x : Byte} (h : BodyData b odd groups data) (hm : m < data.length)
    (hdiff : ∀ hd i n, IsSection odd groups hd i n → ∀ j, j < n →
      unstuffed (byteAt b' (hd + 1 + j)) (byteAt b' hd) j
        = unstuffed (byteAt b (hd + 1 + j)) (byteAt b hd) j ^^^ (if i + j = m then x else 0#8)) :
    BodyData b' odd groups (data.set m (byteAt data m ^^^ x)) := by
  obtain ⟨hlen, hsec⟩ := (bodyData_iff _ _ _ _).1 h
  refine (bodyData_iff _ _ _ _).2 ⟨by rw [List.length_set, hlen], fun hd i n hs j hj => ?_⟩
  rw [hdiff hd i n hs j hj]
  by_cases hi : i + j = m
  · rw [if_pos hi, hi, List.getElem?_set_self hm, ← byteAt_eq_of_getElem? (hsec hd i n hs j hj), hi]
  · rw [if_neg hi, BitVec.xor_zero, List.getElem?_set_ne (Ne.symm hi), hsec hd i n hs j hj]

/-- A flip outside the sections changes no data byte. -/
theorem BodyData.flip_outside (h : BodyData b odd groups data) (hodd : odd ≤ 6) (hk : k / 8 < b.length)
    (hout : k / 8 < 7 ∨ firstGroup odd + 8 * groups ≤ k / 8) : BodyData (flipBit b k) odd groups data := by
  obtain ⟨hlen, hsec⟩ := (bodyData_iff _ _ _ _).1 h
  refine (bodyData_iff _ _ _ _).2 ⟨hlen, fun hd i n hs j hj => ?_⟩
  have hend := hs.bounds
  have hsize := hs.size_le hodd
  rw [unstuffed_flipBit hk hd (by omega), flipMask_off (by omega), flipMask_off (by omega), unstuffed_zero,
    BitVec.xor_zero, hsec hd i n hs j hj]

/-- A flip in a section that changes one bit of its data byte `j` is a checksum mismatch. -/
theorem Intact.fails_of_data_flip {hd i n j : Nat} {x : Byte} (hb : Intact b odd groups data) (hodd : odd ≤ 6)
    (hk : k / 8 < b.length) (hs : IsSection odd groups hd i n) (hin : hd ≤ k / 8 ∧ k / 8 ≤ hd + n) (hj : j < n)
    (hx : x ≠ 0#8)
    (hdiff : ∀ l, l < n → unstuffed (flipMask k (hd + 1 + l)) (flipMask k hd) l = if l = j then x else 0#8) :
    FailsChecks (flipBit b k) odd groups := by
  have hend := hs.bounds
  have hm : i + j < data.length := by
    rw [hb.holds.1]
    omega
  have hset : BodyData (flipBit b k) odd groups (data.set (i + j) (byteAt data (i + j) ^^^ x)) := by
    refine hb.holds.set hm fun hd' i' n' hs' l hl => ?_
    have hsize := hs'.size_le hodd
    rw [unstuffed_flipBit hk hd' (by omega)]
    congr 1
    obtain hbefore | ⟨rfl, rfl, rfl⟩ | hafter := hs.before_or_eq_or_after hs'
    · rw [flipMask_off (by omega), flipMask_off (by omega), unstuffed_zero, if_neg (by omega)]
    · rw [hdiff l hl]
      simp only [Nat.add_left_cancel_iff]
    · rw [flipMask_off (by omega), flipMask_off (by omega), unstuffed_zero, if_neg (by omega)]
  refine .inr ⟨_, hset, ?_⟩
  rw [xorBytes_set hm, xorBytes_take_flipBit 7 hk, if_neg (by omega), BitVec.xor_zero,
    rxChk_flipBit_before hk (by omega), ← hb.checksum, BitVec.xor_assoc, BitVec.xor_comm x, ← BitVec.xor_assoc]
  exact xor_ne_self hx

/-- Bits 6 to 0 of a stored byte are the data's. -/
theorem Intact.fails_of_stored_flip {hd i n j : Nat} (hb : Intact b odd groups data) (hodd : odd ≤ 6)
    (hk : k / 8 < b.length) (hs : IsSection odd groups hd i n) (hj : j < n) (hpos : k / 8 = hd + 1 + j)
    (hbit : k % 8 < 7) : FailsChecks (flipBit b k) odd groups := by
  have hsize := hs.size_le hodd
  have hmask : ∀ r < 7, ∀ l < 7, unstuffed (1#8 <<< r) 0#8 l = 1#8 <<< r := by decide
  refine hb.fails_of_data_flip hodd hk hs (by omega) hj (single_bit_ne_zero k) fun l hl => ?_
  rw [flipMask_off (i := hd) (by omega)]
  by_cases hlj : l = j
  · rw [flipMask_at (by omega), if_pos hlj, hmask _ hbit _ (by omega)]
  · rw [flipMask_off (by omega), if_neg hlj, unstuffed_zero]

/-- Bit `6-j` of a section's header byte is the MSB of data byte `j`. -/
theorem Intact.fails_of_msb_flip {hd i n : Nat} (hb : Intact b odd groups data) (hodd : odd ≤ 6)
    (hk : k / 8 < b.length) (hs : IsSection odd groups hd i n) (hpos : k / 8 = hd)
    (hbit : k % 8 < 7) (hused : 6 - k % 8 < n) : FailsChecks (flipBit b k) odd groups := by
  have hsize := hs.size_le hodd
  have hmask : ∀ r < 7, ∀ l < 7, unstuffed 0#8 (1#8 <<< r) l = if l = 6 - r then 0x80#8 else 0#8 := by decide
  refine hb.fails_of_data_flip hodd hk hs (by omega) hused (by decide : 0x80#8 ≠ 0#8) fun l hl => ?_
  rw [flipMask_off (by omega), flipMask_at hpos.symm, hmask _ hbit _ (by omega)]

/-- A flip in the header of the body changes the computed checksum. -/
theorem Intact.fails_of_header_flip (hb : Intact b odd groups data) (hodd : odd ≤ 6) (hk : k / 8 < b.length)
    (hpos : k / 8 < 7) : FailsChecks (flipBit b k) odd groups := by
  have hbase := seven_le_firstGroup odd
  refine .inr ⟨data, hb.holds.flip_outside hodd hk (.inl hpos), ?_⟩
  rw [xorBytes_take_flipBit 7 hk, if_pos hpos, rxChk_flipBit_before hk (by omega), ← hb.checksum, ← BitVec.xor_assoc]
  exact xor_ne_self (single_bit_ne_zero k)

/-- A flip of a checksum bit in the trailer changes the received checksum. -/
theorem Intact.fails_of_checksum_flip (hb : Intact b odd groups data) (hodd : odd ≤ 6) (hk : k / 8 < b.length)
    (hpos : firstGroup odd + 8 * groups ≤ k / 8)
    (hbit : mergeChk (flipMask k (firstGroup odd + 8 * groups)) (flipMask k (firstGroup odd + 8 * groups + 1)) ≠ 0#8) :
    FailsChecks (flipBit b k) odd groups := by
  have hbase := seven_le_firstGroup odd
  refine .inr ⟨data, hb.holds.flip_outside hodd hk (.inr hpos), ?_⟩
  rw [xorBytes_take_flipBit 7 hk, if_neg (by omega), BitVec.xor_zero, rxChk_flipBit hk, hb.checksum]
  exact (xor_ne_self hbit).symm

/-! #### A flip of a fixed bit -/

/-- Bit 7 of a byte before the trailer is set. -/
theorem Intact.fails_of_high_bit_flip (hb : Intact b odd groups data) (hk : k / 8 < b.length)
    (hpos : k / 8 < firstGroup odd + 8 * groups) (hbit : k % 8 = 7) : FailsChecks (flipBit b k) odd groups := by
  refine .inl fun ⟨hhigh, _⟩ => ?_
  have hflip := hhigh _ hpos
  rw [byteAt_flipBit hk, flipMask_at rfl, BitVec.getLsbD_xor, hb.framed.1 _ hpos, hbit] at hflip
  exact absurd hflip (by decide)

/-- The bits of an odd header that belong to no data byte are 0. -/
theorem Intact.fails_of_unused_bit_flip (hb : Intact b odd groups data) (hk : k / 8 < b.length) (hodd : odd ≠ 0)
    (hpos : k / 8 = 7) (hbit : odd + k % 8 < 7) : FailsChecks (flipBit b k) odd groups := by
  have hmask : ∀ m < 7, ∀ r < 7 - m, 1#8 <<< r &&& (0x7F#8 >>> m) ≠ 0#8 := by decide
  obtain ⟨-, hunused, -⟩ := hb.framed
  refine .inl fun ⟨_, hunused', _⟩ => hmask odd (by omega) (k % 8) (by omega) ?_
  have hflip := hunused' hodd
  rw [byteAt_flipBit hk, flipMask_at hpos.symm, ← hunused hodd] at hflip
  exact and_eq_zero_of_xor_and hflip

/-- Bits 7, 5, 3 and 1 of a trailer byte are set. -/
theorem Intact.fails_of_fixed_bit_flip (hb : Intact b odd groups data) (hk : k / 8 < b.length)
    (hpos : k / 8 = firstGroup odd + 8 * groups ∨ k / 8 = firstGroup odd + 8 * groups + 1)
    (hbit : 1#8 <<< (k % 8) &&& 0xAA#8 ≠ 0#8) : FailsChecks (flipBit b k) odd groups := by
  obtain ⟨-, -, hchk1, hchk2, -⟩ := hb.framed
  refine .inl fun ⟨_, _, hchk1', hchk2', _⟩ => hbit ?_
  obtain hpos | hpos := hpos
  · rw [byteAt_flipBit hk, flipMask_at hpos.symm] at hchk1'
    exact and_eq_zero_of_xor_and (hchk1'.trans hchk1.symm)
  · rw [byteAt_flipBit hk, flipMask_at hpos.symm] at hchk2'
    exact and_eq_zero_of_xor_and (hchk2'.trans hchk2.symm)

/-- Every bit of the end byte is fixed. -/
theorem Intact.fails_of_end_flip (hb : Intact b odd groups data) (hk : k / 8 < b.length)
    (hpos : k / 8 = firstGroup odd + 8 * groups + 2) : FailsChecks (flipBit b k) odd groups := by
  obtain ⟨-, -, -, -, hend⟩ := hb.framed
  refine .inl fun ⟨_, _, _, _, hend'⟩ => ?_
  rw [byteAt_flipBit hk, flipMask_at hpos.symm] at hend'
  exact xor_ne_self (single_bit_ne_zero k) (hend'.trans hend.symm)

/-! #### Every place of the body -/

/-- In a section, a bit is the data's, or bit 7, or an unused bit of the odd header. -/
theorem Intact.fails_of_section_flip {hd i n : Nat} (hb : Intact b odd groups data) (hodd : odd ≤ 6)
    (hk : k / 8 < b.length) (hs : IsSection odd groups hd i n)
    (hpos : k / 8 = hd ∨ ∃ j, j < n ∧ k / 8 = hd + 1 + j) : FailsChecks (flipBit b k) odd groups := by
  have hend := hs.bounds
  by_cases hhigh : k % 8 = 7
  · exact hb.fails_of_high_bit_flip hk (by omega) hhigh
  have hlow : k % 8 < 7 := by omega
  obtain hpos | ⟨j, hj, hpos⟩ := hpos
  · by_cases hused : 6 - k % 8 < n
    · exact hb.fails_of_msb_flip hodd hk hs hpos hlow hused
    · obtain ⟨hne, rfl, rfl, rfl⟩ | ⟨g, -, -, -, rfl⟩ := hs
      · exact hb.fails_of_unused_bit_flip hk hne hpos (by omega)
      · omega
  · exact hb.fails_of_stored_flip hodd hk hs hj hpos hlow

/-- In the two checksum bytes, a bit is the checksum's or fixed. -/
theorem Intact.fails_of_trailer_flip (hb : Intact b odd groups data) (hodd : odd ≤ 6) (hk : k / 8 < b.length)
    (hpos : k / 8 = firstGroup odd + 8 * groups ∨ k / 8 = firstGroup odd + 8 * groups + 1) :
    FailsChecks (flipBit b k) odd groups := by
  have hmask : ∀ r < 8, 1#8 <<< r &&& 0xAA#8 = 0#8 →
      mergeChk (1#8 <<< r) 0#8 ≠ 0#8 ∧ mergeChk 0#8 (1#8 <<< r) ≠ 0#8 := by decide
  by_cases hfixed : 1#8 <<< (k % 8) &&& 0xAA#8 = 0#8
  · obtain ⟨hfirst, hsecond⟩ := hmask _ (Nat.mod_lt _ (by decide)) hfixed
    refine hb.fails_of_checksum_flip hodd hk (by omega) ?_
    obtain hpos | hpos := hpos
    · rwa [flipMask_at hpos.symm, flipMask_off (by omega)]
    · rwa [flipMask_off (by omega), flipMask_at hpos.symm]
  · exact hb.fails_of_fixed_bit_flip hk hpos hfixed

/-- An intact body fails its checks after a flip of any one of its bits, as long as the counts are the same. -/
theorem Intact.fails_of_flip (hb : Intact b odd groups data) (hodd : odd ≤ 6) (hk : k / 8 < b.length)
    (hend : k / 8 < firstGroup odd + 8 * groups + 3) : FailsChecks (flipBit b k) odd groups := by
  by_cases hheader : k / 8 < 7
  · exact hb.fails_of_header_flip hodd hk hheader
  by_cases hsections : k / 8 < firstGroup odd + 8 * groups
  · obtain ⟨hd, i, n, hs, hpos⟩ := exists_section_of_position (Nat.not_lt.1 hheader) hsections
    exact hb.fails_of_section_flip hodd hk hs hpos
  by_cases hlast : k / 8 = firstGroup odd + 8 * groups + 2
  · exact hb.fails_of_end_flip hk hlast
  · exact hb.fails_of_trailer_flip hodd hk (by omega)

end Flip

/-- Settles O38: the encoded body is intact, the flip leaves the counts, and the flipped body fails its checks. -/
theorem singleBitFlipsAreCaught : Obligations.SingleBitFlipsAreCaught := by
  intro P src ptype status data k chk chkV hstrict hshim hdata hk h5 h6
  have hbody := encodeRaw_intact P src ptype status data []
  have hstructure := encodeRaw_structureOf hdata src ptype status []
  rw [List.append_nil] at hbody hstructure
  obtain ⟨-, hodd, -, hfit⟩ := structureOf_ok_iff.1 hstructure
  have hlen := length_bodyOf (data := data) (length_headerBytes P src ptype status data.length)
  rw [← encodeRaw_drop_seven] at hlen
  have hin : k / 8 < ((encodeRaw P src ptype status data).drop 7).length := by
    rwa [List.length_drop, length_encodeRaw]
  exact (hbody.fails_of_flip hodd hin (by omega)).decodeBody_bad (structureOf_flipBit hstructure hin h5 h6) hstrict
    hshim chk chkV

end Sys2Proof.Machine
end

section
/-! PROOFS. The serial line: serialization (O34), what a capture takes (O35), and a packet's way from the reference
host through bit recovery, sync lock and decode (O36). -/

namespace Sys2Proof.Machine

/-! ### Serialization (41_transport.md R152) -/

@[simp] theorem length_byteBits (x : Byte) : (byteBits x).length = 8 := rfl

theorem getElem?_byteBits (x : Byte) {k : Nat} (hk : k < 8) : (byteBits x)[k]? = some (x.getLsbD (7 - k)) := by
  interval_cases k <;> rfl

theorem serialize_eq_flatMap (bs : List Byte) : serialize bs = bs.flatMap byteBits := by
  induction bs with
  | nil => rfl
  | cons x bs ih => rw [serialize, ih, List.flatMap_cons]

theorem serialize_append (as bs : List Byte) : serialize (as ++ bs) = serialize as ++ serialize bs := by
  simp only [serialize_eq_flatMap, List.flatMap_append]

@[simp] theorem length_serialize (bs : List Byte) : (serialize bs).length = 8 * bs.length := by
  induction bs with
  | nil => rfl
  | cons x bs ih =>
    rw [serialize, List.length_append, ih, length_byteBits, List.length_cons]
    omega

theorem getElem?_serialize (bs : List Byte) (i : Nat) {k : Nat} (hk : k < 8) :
    (serialize bs)[8 * i + k]? = (bs[i]?).map (fun x => x.getLsbD (7 - k)) := by
  induction bs generalizing i with
  | nil => rfl
  | cons x bs ih =>
    cases i with
    | zero => rw [serialize, List.getElem?_append_left (by simpa using hk), Nat.mul_zero, Nat.zero_add,
        getElem?_byteBits x hk, List.getElem?_cons_zero, Option.map_some]
    | succ i => rw [serialize, List.getElem?_append_right (by simp only [length_byteBits]; omega), length_byteBits,
        show 8 * (i + 1) + k - 8 = 8 * i + k by omega, ih, List.getElem?_cons_succ]

/-- Settles O34: bit `8i+k` of the list is bit `k` of what byte `i` becomes. -/
theorem serializationIsMsbFirst : Obligations.SerializationIsMsbFirst :=
  fun bs => ⟨length_serialize bs, fun i _ hk => getElem?_serialize bs i hk⟩

/-! ### What a capture takes (41_transport.md R159, R170, 30_encoding.md R99) -/

theorem nsamp_bounds (os len : Nat) : 88 * len * os ≤ 10 * nsamp os len ∧ 10 * nsamp os len < 88 * len * os + 10 := by
  unfold nsamp
  generalize 88 * len * os = x
  omega

theorem hostSamples_nil (P : Params) (n : Nat) : hostSamples P [] n = List.replicate n false := by
  simp [hostSamples, lineSamples, serialize, nrzi, finalLevel]

theorem capture_line {s : State} {bytes : List Byte} (h : s.hostLine = some bytes) (n : Nat) :
    capture n s = (hostSamples s.params bytes n, { s with hostLine := none }) := by
  rw [capture, h]
  rfl

theorem capture_samples {s : State} (h : s.hostLine = none) (n : Nat) :
    capture n s =
      (s.samples.take n ++ (List.range (n - s.samples.length)).map (fun k => Config.freeSample (s.draws + k)),
        { s with samples := s.samples.drop n, draws := s.draws + (n - s.samples.length) }) := by
  rw [capture, h]

/-- Settles O35. When fewer than `n` samples are queued, those are all of the first `s.samples.length` captured; else
none of the captured ones is free. -/
theorem captureTakesSamplesFromTheHost : Obligations.CaptureTakesSamplesFromTheHost := by
  refine ⟨nsamp_bounds, hostSamples_nil, fun n s => ⟨capture_length n s, fun _ h => capture_line h n, fun h => ?_⟩⟩
  rw [capture_samples h]
  refine ⟨?_, rfl⟩
  obtain hle | hle := Nat.le_total n s.samples.length
  · rw [Nat.sub_eq_zero_of_le hle, List.range_zero, List.map_nil, List.append_nil, List.take_take,
      Nat.min_eq_right hle]
  · rw [List.take_of_length_le hle, List.take_left]

/-! ### The reference host encoder (41_transport.md R170) -/

theorem length_nrzi (os : Nat) (l : Bool) (bits : List Bool) : (nrzi os l bits).length = bits.length * os := by
  induction bits generalizing l with
  | nil => rw [nrzi, List.length_nil, Nat.zero_mul]
  | cons b bits ih =>
    rw [nrzi, List.length_append, List.length_replicate, ih, List.length_cons, Nat.succ_mul, Nat.add_comm]

theorem nrzi_append (os : Nat) (l : Bool) (as bs : List Bool) :
    nrzi os l (as ++ bs) = nrzi os l as ++ nrzi os (finalLevel l as) bs := by
  induction as generalizing l with
  | nil => rfl
  | cons a as ih => rw [List.cons_append, nrzi, ih, nrzi, finalLevel, List.append_assoc]

theorem nrzi_idle (os : Nat) (l : Bool) (k : Nat) :
    nrzi os l (List.replicate k false) = List.replicate (k * os) l := by
  induction k with
  | zero => rw [Nat.zero_mul]; rfl
  | succ k ih =>
    rw [List.replicate_succ, nrzi, Bool.xor_false, ih, List.replicate_append_replicate, Nat.succ_mul, Nat.add_comm]

theorem finalLevel_idle (l : Bool) (k : Nat) : finalLevel l (List.replicate k false) = l := by
  induction k with
  | zero => rfl
  | succ k ih => rw [List.replicate_succ, finalLevel, Bool.xor_false, ih]

/-- In a window that holds the idle cells and the bits, the encoder sends the idle cells as bits 0, then the bits, and
holds the last level. -/
theorem lineSamples_eq {bits : List Bool} {os lead n : Nat} (h : (lead + bits.length) * os ≤ n) :
    lineSamples bits os (lead * os) n =
      nrzi os false (List.replicate lead false ++ bits)
        ++ List.replicate (n - (lead + bits.length) * os) (finalLevel false bits) := by
  have hlen : (nrzi os false (List.replicate lead false ++ bits)).length = (lead + bits.length) * os := by
    rw [length_nrzi, List.length_append, List.length_replicate]
  have hcells : List.replicate (lead * os) false ++ nrzi os false bits
      = nrzi os false (List.replicate lead false ++ bits) := by
    rw [nrzi_append, nrzi_idle, finalLevel_idle]
  rw [lineSamples, hcells, List.take_append, hlen, List.take_of_length_le (by omega), List.take_replicate,
    Nat.min_eq_left (Nat.sub_le _ _)]

/-! ### Bit recovery (41_transport.md R165) -/

theorem levelChanges_held (l : Bool) (k : Nat) (rest : List Bool) :
    levelChanges l (List.replicate k l ++ rest) = List.replicate k false ++ levelChanges l rest := by
  induction k with
  | zero => rfl
  | succ k ih =>
    rw [List.replicate_succ, List.cons_append, levelChanges, Bool.xor_self, ih, List.replicate_succ, List.cons_append]

/-- A window over one cell recovers whether the level changed at its start. -/
theorem windowBits_cell {os : Nat} (hos : 0 < os) (k : Nat) (prev l : Bool) (rest : List Bool) :
    windowBits os (k + 1) (levelChanges prev (List.replicate os l ++ rest))
      = (l ^^ prev) :: windowBits os k (levelChanges l rest) := by
  obtain ⟨m, rfl⟩ : ∃ m, os = m + 1 := ⟨os - 1, by omega⟩
  have hlen : ((l ^^ prev) :: List.replicate m false).length = m + 1 := by
    rw [List.length_cons, List.length_replicate]
  have hcell : levelChanges prev (List.replicate (m + 1) l ++ rest)
      = ((l ^^ prev) :: List.replicate m false) ++ levelChanges l rest := by
    rw [List.replicate_succ, List.cons_append, levelChanges, levelChanges_held, List.cons_append]
  rw [hcell, windowBits, List.take_left' hlen, List.drop_left' hlen]
  simp

/-- The windows over the cells of encoded bits recover the bits. -/
theorem windowBits_nrzi {os : Nat} (hos : 0 < os) (k : Nat) (l : Bool) (bits rest : List Bool) :
    windowBits os (bits.length + k) (levelChanges l (nrzi os l bits ++ rest))
      = bits ++ windowBits os k (levelChanges (finalLevel l bits) rest) := by
  induction bits generalizing l with
  | nil => rw [List.length_nil, Nat.zero_add]; rfl
  | cons b bits ih =>
    rw [List.length_cons, Nat.succ_add, nrzi, List.append_assoc, windowBits_cell hos, ih, finalLevel, List.cons_append,
      Bool.xor_right_comm, Bool.xor_self, Bool.false_xor]

theorem length_lineSamples (bits : List Bool) (os lead n : Nat) : (lineSamples bits os lead n).length = n := by
  simp only [lineSamples, List.length_take, List.length_append, List.length_replicate]
  omega

/-- Bit recovery of what the reference host sends gives the idle cells and the bits, whatever follows them. -/
theorem recoverBits_lineSamples {bits : List Bool} {os lead n : Nat} (hos : 0 < os) (hlead : 0 < lead)
    (h : (lead + bits.length) * os ≤ n) :
    ∃ after, recoverBits os (lineSamples bits os (lead * os) n) = List.replicate lead false ++ bits ++ after := by
  have hhead : (lineSamples bits os (lead * os) n).headD false = false := by
    obtain ⟨m, hm⟩ : ∃ m, lead * os = m + 1 := ⟨lead * os - 1, by have := Nat.mul_pos hlead hos; omega⟩
    obtain ⟨k, rfl⟩ : ∃ k, n = k + 1 := ⟨n - 1, by rw [Nat.add_mul] at h; omega⟩
    rw [lineSamples, hm, List.replicate_succ]
    rfl
  obtain ⟨k, hk⟩ := Nat.exists_eq_add_of_le ((Nat.le_div_iff_mul_le hos).2 h)
  have hcells : (List.replicate lead false ++ bits).length = lead + bits.length := by
    rw [List.length_append, List.length_replicate]
  rw [recoverBits, hhead, length_lineSamples, hk, lineSamples_eq h, ← hcells, windowBits_nrzi hos]
  exact ⟨_, rfl⟩

/-! ### Sync lock and byte grouping (41_transport.md R166, R167) -/

/-- After idle cells and the preamble the search locks on the start byte and no sooner: no run of eight bits before its
last bit is the start byte. -/
theorem huntSync_preamble (after : List Bool) :
    huntSync 0 (List.replicate 8 false ++ serialize (syncBytes ++ [startByte]) ++ after) = some after := rfl

theorem foldl_shiftIn_byteBits (x : Byte) : (byteBits x).foldl shiftIn 0 = x := by revert x; decide

theorem cutBytes_serialize_append (bs : List Byte) (rest : List Bool) :
    cutBytes (serialize bs ++ rest) = bs ++ cutBytes rest := by
  induction bs with
  | nil => rfl
  | cons x bs ih =>
    have hbyte (tail : List Bool) : cutBytes (byteBits x ++ tail) = (byteBits x).foldl shiftIn 0 :: cutBytes tail := rfl
    rw [serialize, List.append_assoc, hbyte, foldl_shiftIn_byteBits, ih, List.cons_append]

/-- The deserializer locks on a packet the reference host sends, and its body comes first in what it answers. -/
theorem deserialize_hostSamples {P : Params} {body : List Byte} {n : Nat} (hos : 1 ≤ P.os)
    (hfit : body.length ≤ P.bufLen) (hn : 8 * P.os * (1 + (7 + body.length)) ≤ n) :
    ∃ after, deserialize P (hostSamples P (syncBytes ++ startByte :: body) n) = (true, body ++ after) := by
  have hbits : serialize (syncBytes ++ startByte :: body) = serialize (syncBytes ++ [startByte]) ++ serialize body := by
    rw [← serialize_append, List.append_assoc, List.singleton_append]
  have hwindow : (8 + (serialize (syncBytes ++ startByte :: body)).length) * P.os ≤ n := by
    have hpreamble : (serialize (syncBytes ++ startByte :: body)).length = 8 * (7 + body.length) := by
      simp only [length_serialize, syncBytes, List.length_append, List.length_cons, List.length_nil]
      omega
    calc (8 + (serialize (syncBytes ++ startByte :: body)).length) * P.os
        = 8 * P.os * (1 + (7 + body.length)) := by rw [hpreamble]; ring
      _ ≤ n := hn
  obtain ⟨tail, hrecover⟩ := recoverBits_lineSamples hos (by decide : 0 < 8) hwindow
  rw [hbits, ← List.append_assoc, List.append_assoc _ (serialize body)] at hrecover
  rw [deserialize, hostSamples, hbits, hrecover, huntSync_preamble]
  simp only [cutBytes_serialize_append]
  exact ⟨_, by rw [List.take_append, List.take_of_length_le hfit]⟩

/-! ### A packet fits a buffer (00_scope.md R8, 40_codec.md R116) -/

theorem packetLen_mono {m n : Nat} (h : m ≤ n) : packetLen m ≤ packetLen n := by
  rw [packetLen_eq, packetLen_eq]
  split <;> split <;> omega

/-- A payload within MAX_PAYLOAD makes a packet that fits a buffer (00_scope.md R8). -/
theorem packetLen_le_bufLen {P : Params} (hbuf : 17 ≤ P.bufLen) {n : Nat} (h : n ≤ maxPayload P) :
    packetLen n ≤ P.bufLen :=
  Nat.le_trans (packetLen_mono h) (maxPayload_spec hbuf).2.1

/-! ### The whole line (41_transport.md R165 to R170, 40_codec.md R135) -/

/-- Settles O36: the body of the packet is what the deserializer answers first, and it decodes whatever follows it. -/
theorem packetSurvivesTheLine : Obligations.PacketSurvivesTheLine := by
  intro P src ptype status data n chk chkV hbuf hos hdata hn
  have hlen : 7 + ((encodeRaw P src ptype status data).drop 7).length = packetLen data.length := by
    rw [List.length_drop, length_encodeRaw, packetLen_eq]
    omega
  have hfit := packetLen_le_bufLen hbuf hdata
  obtain ⟨after, hline⟩ := deserialize_hostSamples (body := (encodeRaw P src ptype status data).drop 7) hos (by omega)
    (hlen ▸ hn)
  have hraw : syncBytes ++ startByte :: (encodeRaw P src ptype status data).drop 7 = encodeRaw P src ptype status data :=
    rfl
  rw [hraw] at hline
  rw [hline]
  obtain ⟨rx, hdecode⟩ := decodeInvertsEncode P src ptype status data after chk chkV hdata
  exact ⟨rfl, List.take_left' (by omega), _, rx, hdecode, rfl⟩

end Sys2Proof.Machine
end

section
/-! PROOFS. The device layer's transport requests (O8, O9) and the transport's four waits (O24 to O27). -/

namespace Sys2Proof.Machine

/-! ### Admission of the transport requests (41_transport.md R171, R172, 42_bus_fsm.md R219) -/

theorem admitsTransfer_app (s : State) : admitsTransfer .app s = false := rfl

theorem admitsTransfer_devlayer {s : State} :
    admitsTransfer .devlayer s = true ↔
      s.eng = .device ∧ s.dispValid = true ∧ s.trState = .idle ∧ s.dispKind ≠ .ioerror := by
  simp [admitsTransfer, and_assoc]

/-! ### SEND_REPLY (41_transport.md R153, R154, R171, 20_memory.md R62) -/

theorem memWrite_of_fits {P : Params} {vs : List Byte} {i : Nat} (h : i + vs.length ≤ P.bufLen) (m : Memory) :
    memWrite P m i vs = .ok (writeBytes i vs m) := if_neg (Nat.not_lt.2 h)

theorem startSend_of_fits {raw : List Byte} {s : State} (h : raw.length ≤ s.params.bufLen) :
    startSend raw s =
      .ok { s with txBuf := writeBytes 0 raw s.txBuf, txLen := raw.length, ack := false, trT0 := s.timer,
                   trLimit := s.params.tSendReqRise, trState := .sWaitRise } := by
  rw [startSend, memWrite_of_fits (by omega)]

theorem execSendReply_refused {who : Issuer} {s : State} (h : admitsTransfer who s = false) (ptype status : Byte)
    (n : BitVec 16) (data : List Byte) : execSendReply who ptype status n data s = .next (refuse who s) := by
  rw [execSendReply, h]
  rfl

theorem execSendReply_admitted {who : Issuer} {s : State} {n : BitVec 16} {data : List Byte}
    (h : admitsTransfer who s = true) (hlen : data.length = n.toNat) (ptype status : Byte) :
    execSendReply who ptype status n data s =
      if maxPayload s.params < n.toNat then .next (deliver who (Reply.noData Err.param.code none) (raise .param s))
      else orFault (startSend (encodeRaw s.params (devAt s s.dispSlot).addr ptype status data) s)
        (fun s' => .next { s' with busy := true }) := by
  rw [execSendReply, if_neg (by simp [h, hlen])]

/-- Settles O8: an admitted payload within MAX_PAYLOAD makes a packet that fits TXBUF. -/
theorem sendReplyStartsSend : Obligations.SendReplyStartsSend := by
  intro ptype status n data s hlen hbuf
  have hexec (who : Issuer) :
      exec (.sendReply who ptype status n data) s = execSendReply who ptype status n data s := rfl
  rw [hexec, hexec, execSendReply_refused (admitsTransfer_app s)]
  refine ⟨?_, refuses_refuse .app s⟩
  split_ifs with hadmit hfit
  · have hroom : (encodeRaw s.params (devAt s s.dispSlot).addr ptype status data).length ≤ s.params.bufLen := by
      rw [length_encodeRaw]
      exact packetLen_le_bufLen hbuf (hlen ▸ hfit)
    rw [execSendReply_admitted (admitsTransfer_devlayer.2 hadmit) hlen, if_neg (Nat.not_lt.2 hfit),
      startSend_of_fits hroom, length_encodeRaw]
    rfl
  · rw [execSendReply_admitted (admitsTransfer_devlayer.2 hadmit) hlen, if_pos (Nat.lt_of_not_le hfit)]
    exact ⟨_, rfl, rfl⟩
  · rw [execSendReply_refused (Bool.eq_false_of_not_eq_true (mt admitsTransfer_devlayer.1 hadmit))]
    exact refuses_refuse .devlayer s

/-! ### RECV_DATA (41_transport.md R160, R172) -/

theorem execRecvData_refused {who : Issuer} {s : State} (h : admitsTransfer who s = false) (n : BitVec 16) :
    execRecvData who n s = .next (refuse who s) := by
  rw [execRecvData, h]
  rfl

theorem execRecvData_admitted {who : Issuer} {s : State} (h : admitsTransfer who s = true) (n : BitVec 16) :
    execRecvData who n s =
      if 1 ≤ n.toNat ∧ n.toNat ≤ s.params.bufLen then .next { startRecv n.toNat s with busy := true }
      else .next (refuse who s) := by
  rw [execRecvData, h, ← ite_not]
  refine if_congr ?_ rfl rfl
  simp [Nat.one_le_iff_ne_zero]

/-- Settles O9: an admitted request is served when N is in range. -/
theorem recvDataStartsReceive : Obligations.RecvDataStartsReceive := by
  intro n s
  have hexec (who : Issuer) : exec (.recvData who n) s = execRecvData who n s := rfl
  rw [hexec, hexec, execRecvData_refused (admitsTransfer_app s)]
  refine ⟨?_, refuses_refuse .app s⟩
  split_ifs with h
  · obtain ⟨heng, hvalid, htr, hkind, hrange⟩ := h
    rw [execRecvData_admitted (admitsTransfer_devlayer.2 ⟨heng, hvalid, htr, hkind⟩), if_pos hrange]
    rfl
  · suffices hrefuse : execRecvData .devlayer n s = .next (refuse .devlayer s) from
      hrefuse ▸ refuses_refuse .devlayer s
    by_cases hadmit : admitsTransfer .devlayer s = true
    · obtain ⟨heng, hvalid, htr, hkind⟩ := admitsTransfer_devlayer.1 hadmit
      rw [execRecvData_admitted hadmit, if_neg fun hrange => h ⟨heng, hvalid, htr, hkind, hrange⟩]
    · exact execRecvData_refused (Bool.eq_false_of_not_eq_true hadmit) n

/-! ### The bounded wait and the end of a transfer (41_transport.md R151, R157, R171, R172) -/

theorem waitReq_stay {level : Bool} {t0 limit : Word32} {s : State} :
    waitReq level t0 limit s = .stay ↔ reqLevel s ≠ level ∧ ¬ limit ≤ s.timer - t0 := by
  unfold waitReq
  split_ifs <;> simp [*]

/-- The end of a transfer answers DEVLAYER exactly when it asked for it. -/
theorem ended_endTransfer {p : Reply → Prop} {res : TrResult} {rep : Reply} {s : State} (hp : p rep) :
    Ended p (.next (endTransfer res rep s)) { s with trResult := res, trState := .idle } := by
  unfold Ended endTransfer answerBusy
  split
  · exact ⟨rep, hp, rfl⟩
  · rfl

theorem ended_timeoutTransfer {p : Reply → Prop} {res : TrResult} {e : Err} {s : State}
    (hp : p (Reply.code e.code)) :
    Ended p (.next (timeoutTransfer res e s)) { raise e s with trResult := res, trState := .idle } :=
  ended_endTransfer hp

/-! ### SEND's waits (41_transport.md R156 to R158, R164) -/

/-- Settles O24: each outcome of the bounded wait, with the bits of the packet in TXBUF. -/
theorem sendWaitsForReqToRise : Obligations.SendWaitsForReqToRise := by
  intro s raw hraw
  have hexec : exec .sWaitRise s = execSWaitRise s := rfl
  rw [hexec]
  split_ifs with hreq hlimit
  · rw [execSWaitRise, waitReq_success.2 hreq, hraw, ← serialize_eq_flatMap]
    rfl
  · rw [execSWaitRise, waitReq_timeout.2 ⟨hreq, hlimit⟩]
    exact ended_timeoutTransfer rfl
  · rw [execSWaitRise, waitReq_stay.2 ⟨hreq, hlimit⟩]

/-- Settles O25: each outcome of the bounded wait ends the SEND or leaves it waiting. -/
theorem sendWaitsForReqToFall : Obligations.SendWaitsForReqToFall := by
  intro s
  have hexec : exec .sWaitFall s = execSWaitFall s := rfl
  rw [hexec]
  split_ifs with hreq hlimit
  · rw [execSWaitFall, waitReq_success.2 hreq]
    exact ended_endTransfer rfl
  · rw [execSWaitFall, waitReq_timeout.2 ⟨hreq, hlimit⟩]
    exact ended_timeoutTransfer rfl
  · rw [execSWaitFall, waitReq_stay.2 ⟨hreq, hlimit⟩]

/-! ### RECV's waits (41_transport.md R161 to R163) -/

/-- Settles O26: what the deserializer answers fits RXBUF. -/
theorem receiveWaitsForReqToRise : Obligations.ReceiveWaitsForReqToRise := by
  intro s
  have hexec : exec .rWaitRise s = execRWaitRise s := rfl
  rw [hexec]
  split_ifs with hreq hlimit
  · refine ⟨_, _, rfl, capture_state _ s, ?_⟩
    rw [execRWaitRise, waitReq_success.2 hreq]
    simp only [memWrite_of_fits ((Nat.zero_add _).trans_le (deserialize_length _ _))]
    rfl
  · rw [execRWaitRise, waitReq_timeout.2 ⟨hreq, hlimit⟩]
    exact ended_timeoutTransfer rfl
  · rw [execRWaitRise, waitReq_stay.2 ⟨hreq, hlimit⟩]

/-- Settles O27: once REQ has fallen, the verdict on the received body is decode's. -/
theorem receiveWaitsForReqToFall : Obligations.ReceiveWaitsForReqToFall := by
  intro s b hb
  have hexec : exec .rWaitFall s = execRWaitFall s := rfl
  rw [hexec]
  split_ifs with hreq hlock hlimit
  · rw [execRWaitFall, waitReq_success.2 hreq]
    simp only [if_pos hlock]
    exact ended_endTransfer (s := raise .nosync s) ⟨rfl, rfl, rfl⟩
  · rw [execRWaitFall, waitReq_success.2 hreq, hb]
    simp only [if_neg hlock, orFault, runDecode_eq]
    cases decodeBody s.params s.lastChk s.lastChkV b with
    | good rec rx => exact ended_endTransfer (s := { s with lastChk := rx, lastChkV := true }) ⟨rfl, rfl, rfl, rfl⟩
    | bad e rx => exact ended_endTransfer (s := raise e (afterDecode rx s)) ⟨rfl, rfl, rfl⟩
  · rw [execRWaitFall, waitReq_timeout.2 ⟨hreq, hlimit⟩]
    exact ended_timeoutTransfer rfl
  · rw [execRWaitFall, waitReq_stay.2 ⟨hreq, hlimit⟩]

end Sys2Proof.Machine
end

section
/-! PROOFS. Every step keeps the handoff and handshake relations (O52): the registers they speak of, the moves the rules
allow on them, what each operation's move is, and that every move keeps the relations. -/

namespace Sys2Proof.Machine

/-! ### The registers of the handoff -/

/-- The registers `HandoffOk` speaks of. -/
structure Handoff where
  eng : Eng
  staged : Bool
  ack : Bool
  curKind : CurKind
  trState : TrState
  busy : Bool
  isrState : IsrState
  dispValid : Bool

def State.handoff (s : State) : Handoff where
  eng := s.eng
  staged := s.staged
  ack := s.ack
  curKind := s.curKind
  trState := s.trState
  busy := s.busy
  isrState := s.isrState
  dispValid := s.dispValid

/-- `HandoffOk`, as a property of these registers. -/
def Handoff.Ok (a : Handoff) : Prop :=
  (a.staged = false → noCommand a.eng = true)
    ∧ (a.isrState = .waitRise → a.staged = false ∧ a.trState = .idle)
    ∧ (a.trState ≠ .idle → a.eng = .initReply ∨ a.eng = .device)
    ∧ (a.busy = true → a.trState ≠ .idle ∧ a.eng = .device)
    ∧ (a.trState ≠ .idle → a.eng = .device → a.busy = true)
    ∧ (noCommand a.eng = true → a.ack = false ∧ a.curKind = .none)
    ∧ (a.eng = .claimWait ∨ a.eng = .decode → a.ack = true ∧ a.curKind ≠ .none)
    ∧ (a.eng = .initReply → a.curKind = .init) ∧ (a.eng = .device → a.curKind = .cmd)
    ∧ (a.trState = .sWaitRise ∨ a.trState = .rWaitRise → a.ack = false)
    ∧ (a.trState = .sWaitFall ∨ a.trState = .rWaitFall → a.ack = true)
    ∧ (a.dispValid = true ↔ a.eng = .device)

theorem handoffOk_iff (s : State) : HandoffOk s ↔ s.handoff.Ok := Iff.rfl

/-- The moves the rules allow on the registers of the handoff. -/
inductive HandoffMove (a : Handoff) : Handoff → Prop
  /-- Nothing of the handoff changes. -/
  | stay : HandoffMove a a
  /-- A bus reset (42_bus_fsm.md R196). -/
  | busReset (htr : a.trState = .idle) (heng : noCommand a.eng = true) :
    HandoffMove a { a with staged := false, ack := false, curKind := .none, eng := .reset }
  /-- The engine follows the sampled phase, with no command in flight (R193, R194, R198). -/
  | follow (e : Eng) (htr : a.trState = .idle) (heng : noCommand a.eng = true) (he : noCommand e = true) :
    HandoffMove a { a with eng := e }
  /-- A command is claimed (R201, R207). -/
  | claim (kind : CurKind) (hkind : kind ≠ .none) (htr : a.trState = .idle) (hstaged : a.staged = true)
    (heng : a.eng = .enable) : HandoffMove a { a with curKind := kind, ack := true, eng := .claimWait }
  /-- REQ fell after the claim (R209). -/
  | decode (heng : a.eng = .claimWait) : HandoffMove a { a with eng := .decode }
  /-- A command is dropped, claimed by nobody, or answered (R201, R202, R206, R209, R210, R214). -/
  | finish (htr : a.trState = .idle) (hheld : a.staged = true ∨ noCommand a.eng = false) (heng : a.eng ≠ .device) :
    HandoffMove a { a with eng := .finish }
  /-- An INIT is assigned, and its reply's SEND starts (R213). -/
  | assign (heng : a.eng = .decode) (htr : a.trState = .idle) (hkind : a.curKind = .init) :
    HandoffMove a { a with ack := false, trState := .sWaitRise, eng := .initReply }
  /-- A CMD is handed to the device layer (R212, R215). -/
  | dispatch (heng : a.eng = .decode) (htr : a.trState = .idle) (hkind : a.curKind ≠ .init) :
    HandoffMove a { a with dispValid := true, eng := .device }
  /-- DEVLAYER starts a SEND or a RECV (41_transport.md R171, R172). -/
  | transfer (tr : TrState) (hrise : tr = .sWaitRise ∨ tr = .rWaitRise) (heng : a.eng = .device) :
    HandoffMove a { a with ack := false, trState := tr, busy := true }
  /-- REQ rose in a transfer (41_transport.md R158, R162). -/
  | shake (tr : TrState) (hfall : tr = .sWaitFall ∨ tr = .rWaitFall) (htr : a.trState ≠ .idle) :
    HandoffMove a { a with ack := true, trState := tr }
  /-- A transfer ends (41_transport.md R157, R161, R163, R164). -/
  | ended : HandoffMove a { a with trState := .idle, busy := false }
  /-- DEV_DONE (42_bus_fsm.md R217). -/
  | done (heng : a.eng = .device) (htr : a.trState = .idle) :
    HandoffMove a { a with dispValid := false, eng := .finish }
  /-- E_FINISH (R216). -/
  | release (htr : a.trState = .idle) :
    HandoffMove a { a with ack := false, staged := false, curKind := .none, dispValid := false, eng := .idle }
  /-- The prefetch begins (R224). -/
  | prefetch (hstaged : a.staged = false) (htr : a.trState = .idle) : HandoffMove a { a with isrState := .waitRise }
  /-- A command is staged (R226). -/
  | stage : HandoffMove a { a with staged := true, isrState := .idle }
  /-- The prefetch finds no command (R225). -/
  | giveUp : HandoffMove a { a with isrState := .idle }

theorem CurKind.eq_cmd {k : CurKind} (hnone : k ≠ .none) (hinit : k ≠ .init) : k = .cmd := by
  cases k with
  | none => exact absurd rfl hnone
  | init => exact absurd rfl hinit
  | cmd => rfl

/-- Every move keeps the relations. A dispatched command is a CMD: it is claimed, and no INIT. -/
theorem Handoff.Ok.move {a b : Handoff} (h : a.Ok) (hm : HandoffMove a b) : b.Ok := by
  unfold Handoff.Ok at h ⊢
  cases hm with
  | stay => exact h
  | dispatch heng htr hkind =>
    obtain ⟨-, -, -, -, -, -, hclaimed, -⟩ := id h
    have hcmd : a.curKind = .cmd := CurKind.eq_cmd (hclaimed (.inr heng)).2 hkind
    grind [noCommand]
  | busReset | follow | claim | decode | finish | assign => grind [noCommand]
  | transfer | shake | ended => grind [noCommand]
  | done | release => grind [noCommand]
  | prefetch | stage | giveUp => grind [noCommand]

/-- The operation's effect on the handoff is one of the moves. -/
abbrev Moves (s : State) (o : Out) : Prop := Leads (fun t => HandoffMove s.handoff t.handoff) o

/-- The registers of the handoff are as they were. -/
def SameHandoff (s t : State) : Prop := t.handoff = s.handoff

theorem SameHandoff.trans {s t u : State} (h : SameHandoff s t) (h' : SameHandoff t u) : SameHandoff s u :=
  Eq.trans h' h

theorem HandoffMove.of_same {s t : State} (h : SameHandoff s t) : HandoffMove s.handoff t.handoff := by
  rw [show t.handoff = s.handoff from h]
  exact .stay

theorem Leads.moves {s : State} {o : Out} (h : Leads (SameHandoff s) o) : Moves s o :=
  h.mono fun _ => .of_same

/-! ### What the shared operations do to the handoff -/

theorem sameHandoff_deliver (who : Issuer) (r : Reply) (s : State) : SameHandoff s (deliver who r s) := by
  cases who <;> rfl

theorem sameHandoff_refuse (who : Issuer) (s : State) : SameHandoff s (refuse who s) := by
  cases who <;> rfl

theorem sameHandoff_failRequest (who : Issuer) (e : Err) (s : State) : SameHandoff s (failRequest who e s) := by
  cases who <;> rfl

theorem capture_handoff (n : Nat) (s : State) : (capture n s).2.handoff = s.handoff := by
  rw [capture_state]
  rfl

theorem sameHandoff_of_runDecode {b : List Byte} {s t : State} {d : DecodeResult} (h : runDecode b s = (d, t)) :
    SameHandoff s t := by
  have hs : SameHandoff s (runDecode b s).2 := by
    rw [runDecode_state]
    rfl
  rwa [h] at hs

theorem sameHandoff_takeRequest {s t : State} {who : Issuer} {r : Request} (h : takeRequest s = some (who, r, t)) :
    SameHandoff s t := by
  obtain ⟨-, -, ht⟩ | ⟨-, -, ht⟩ := takeRequest_some h <;> rw [ht] <;> rfl

/-- A transfer that ends leaves nobody waiting for it. -/
theorem endTransfer_handoff (res : TrResult) (rep : Reply) (s : State) :
    (endTransfer res rep s).handoff = { s.handoff with trState := .idle, busy := false } := by
  unfold endTransfer answerBusy
  split
  · rfl
  · next hbusy =>
    have hfree : s.busy = false := Bool.eq_false_of_not_eq_true hbusy
    simp only [State.handoff, hfree]

/-- Going on from the decode of the staged body, which writes LAST_CHK and LAST_CHK_V alone. -/
theorem withStaged_leads_of_lastChk {p : State → Prop} {s : State} {k : DecodeResult → State → Out}
    (hk : ∀ d c v, Leads p (k d { s with lastChk := c, lastChkV := v })) : Leads p (withStaged s k) := by
  refine leads_orFault fun b _ => ?_
  rw [runDecode_state]
  exact hk _ _ _

/-! ### The operation port (43_registry.md R240 to R244, 41_transport.md R171, R172, 42_bus_fsm.md R217) -/

theorem execAddDevice_sameHandoff (who : Issuer) (slot dtype : Byte) (s : State) :
    Leads (SameHandoff s) (execAddDevice who slot dtype s) := by
  unfold execAddDevice
  split_ifs
  · exact leads_next.2 (sameHandoff_refuse who s)
  · exact leads_next.2 (sameHandoff_failRequest who _ s)
  · exact leads_next.2 (sameHandoff_deliver who _ _)

theorem execRemoveDevice_sameHandoff (who : Issuer) (slot : Byte) (s : State) :
    Leads (SameHandoff s) (execRemoveDevice who slot s) := by
  unfold execRemoveDevice
  split_ifs
  · exact leads_next.2 (sameHandoff_refuse who s)
  · exact leads_next.2 (sameHandoff_failRequest who _ s)
  · exact leads_next.2 (sameHandoff_deliver who _ _)

theorem execSetActive_sameHandoff (who : Issuer) (addr v : Byte) (s : State) :
    Leads (SameHandoff s) (execSetActive who addr v s) := by
  unfold execSetActive
  split
  · exact leads_next.2 (sameHandoff_refuse who s)
  · split
    · exact leads_next.2 (sameHandoff_failRequest who _ s)
    · exact leads_next.2 (sameHandoff_deliver who _ _)

theorem execSetActiveSlot_sameHandoff (who : Issuer) (slot v : Byte) (s : State) :
    Leads (SameHandoff s) (execSetActiveSlot who slot v s) := by
  unfold execSetActiveSlot
  split_ifs
  · exact leads_next.2 (sameHandoff_refuse who s)
  · exact leads_next.2 (sameHandoff_failRequest who _ s)
  · exact leads_next.2 (sameHandoff_deliver who _ _)

theorem execDeviceByAddr_sameHandoff (who : Issuer) (addr : Byte) (s : State) :
    Leads (SameHandoff s) (execDeviceByAddr who addr s) := by
  unfold execDeviceByAddr
  split
  · exact leads_next.2 (sameHandoff_refuse who s)
  · exact leads_next.2 (sameHandoff_deliver who _ s)

theorem execEncodePacket_sameHandoff (who : Issuer) (src ptype status : Byte) (n : BitVec 16) (data : List Byte)
    (s : State) : Leads (SameHandoff s) (execEncodePacket who src ptype status n data s) := by
  unfold execEncodePacket
  split_ifs
  · exact leads_next.2 (sameHandoff_refuse who s)
  · exact leads_next.2 (sameHandoff_deliver who _ _)
  · exact leads_next.2 (sameHandoff_deliver who _ s)

theorem execDecodePacket_sameHandoff (who : Issuer) (n : BitVec 16) (data : List Byte) (s : State) :
    Leads (SameHandoff s) (execDecodePacket who n data s) := by
  unfold execDecodePacket
  split
  · exact leads_next.2 (sameHandoff_refuse who s)
  · split
    · next hrun => exact leads_next.2 ((sameHandoff_of_runDecode hrun).trans (sameHandoff_deliver who _ _))
    · next e _ s' hrun =>
      exact leads_next.2 ((sameHandoff_of_runDecode hrun).trans (sameHandoff_deliver who _ (raise e s')))

/-- SEND_REPLY and RECV_DATA are admitted only in E_DEVICE. -/
theorem eng_of_admitsTransfer {who : Issuer} {s : State} (h : admitsTransfer who s = true) : s.eng = .device := by
  cases who with
  | app => cases h
  | devlayer => exact (admitsTransfer_devlayer.1 h).1

theorem execSendReply_moves (who : Issuer) (ptype status : Byte) (n : BitVec 16) (data : List Byte) (s : State) :
    Moves s (execSendReply who ptype status n data s) := by
  unfold execSendReply
  split_ifs with hrefused
  · exact leads_next.2 (.of_same (sameHandoff_refuse who s))
  · exact leads_next.2 (.of_same (sameHandoff_deliver who _ _))
  · have heng : s.eng = .device := eng_of_admitsTransfer (who := who) (by simp_all)
    refine leads_orFault fun t ht => leads_next.2 ?_
    obtain ⟨-, rfl⟩ := startSend_ok ht
    exact .transfer .sWaitRise (.inl rfl) heng

theorem execRecvData_moves (who : Issuer) (n : BitVec 16) (s : State) : Moves s (execRecvData who n s) := by
  unfold execRecvData
  split_ifs with hrefused
  · exact leads_next.2 (.of_same (sameHandoff_refuse who s))
  · have heng : s.eng = .device := eng_of_admitsTransfer (who := who) (by simp_all)
    exact leads_next.2 (.transfer .rWaitRise (.inr rfl) heng)

theorem execDevDone_moves (who : Issuer) (s : State) : Moves s (execDevDone who s) := by
  unfold execDevDone
  split_ifs with hrefused
  · exact leads_next.2 (.of_same (sameHandoff_refuse who s))
  · have hadmit : s.eng = .device ∧ s.trState = .idle := by simp_all [admitsDone]
    refine leads_next.2 ?_
    rw [show (deliver who _ _).handoff = _ from sameHandoff_deliver who _ _]
    exact .done hadmit.1 hadmit.2

theorem servePort_moves (who : Issuer) (r : Request) (s : State) : Moves s (servePort who r s) := by
  unfold servePort
  cases portKind r.op with
  | addDevice => exact (execAddDevice_sameHandoff who _ _ s).moves
  | removeDevice => exact (execRemoveDevice_sameHandoff who _ s).moves
  | setActive => exact (execSetActive_sameHandoff who _ _ s).moves
  | setActiveSlot => exact (execSetActiveSlot_sameHandoff who _ _ s).moves
  | deviceByAddr => exact (execDeviceByAddr_sameHandoff who _ s).moves
  | encodePacket => exact (execEncodePacket_sameHandoff who _ _ _ _ _ s).moves
  | decodePacket => exact (execDecodePacket_sameHandoff who _ _ s).moves
  | sendReply => exact execSendReply_moves who _ _ _ _ s
  | recvData => exact execRecvData_moves who _ s
  | devDone => exact execDevDone_moves who s
  | reserved => exact leads_next.2 (.of_same (sameHandoff_refuse who s))

/-! ### The transport's waits (41_transport.md R156 to R164) -/

theorem endTransfer_move {s t : State} (h : SameHandoff s t) (res : TrResult) (rep : Reply) :
    HandoffMove s.handoff (endTransfer res rep t).handoff := by
  rw [endTransfer_handoff, show t.handoff = s.handoff from h]
  exact .ended

theorem timeoutTransfer_move (res : TrResult) (e : Err) (s : State) :
    HandoffMove s.handoff (timeoutTransfer res e s).handoff :=
  endTransfer_move (t := raise e s) rfl res _

theorem execSWaitRise_moves {s : State} (hwait : s.trState = .sWaitRise) : Moves s (execSWaitRise s) := by
  have htr : s.trState ≠ .idle := by simp [hwait]
  unfold execSWaitRise
  split
  · exact leads_next.2 .stay
  · exact leads_next.2 (timeoutTransfer_move _ _ s)
  · exact leads_orFault fun raw _ => leads_next.2 (.shake .sWaitFall (.inl rfl) htr)

theorem execSWaitFall_moves (s : State) : Moves s (execSWaitFall s) := by
  unfold execSWaitFall
  split
  · exact leads_next.2 .stay
  · exact leads_next.2 (timeoutTransfer_move _ _ s)
  · exact leads_next.2 (endTransfer_move (t := s) rfl _ _)

theorem execRWaitRise_moves {s : State} (hwait : s.trState = .rWaitRise) : Moves s (execRWaitRise s) := by
  have htr : s.trState ≠ .idle := by simp [hwait]
  unfold execRWaitRise
  split
  · exact leads_next.2 .stay
  · exact leads_next.2 (timeoutTransfer_move _ _ s)
  · refine leads_orFault fun m _ => leads_next.2 ?_
    rw [← capture_handoff (nsamp s.params.os s.rxExpect) s]
    refine .shake .rWaitFall (.inr rfl) ?_
    rw [capture_handoff]
    exact htr

theorem execRWaitFall_moves (s : State) : Moves s (execRWaitFall s) := by
  unfold execRWaitFall
  split
  · exact leads_next.2 .stay
  · exact leads_next.2 (timeoutTransfer_move _ _ s)
  · split
    · exact leads_next.2 (endTransfer_move (t := raise .nosync s) rfl _ _)
    · refine leads_orFault fun b _ => ?_
      split
      · next hrun => exact leads_next.2 (endTransfer_move (sameHandoff_of_runDecode hrun) _ _)
      · next e _ s' hrun =>
        have hraise : SameHandoff s (raise e s') := (sameHandoff_of_runDecode hrun).trans rfl
        exact leads_next.2 (endTransfer_move hraise _ _)

/-! ### The prefetch (42_bus_fsm.md R224 to R226) -/

theorem execIsrStart_moves {s : State} (htr : s.trState = .idle) : Moves s (execIsrStart s) := by
  refine leads_next.2 ?_
  unfold takeInterrupt
  split
  · next hbegin =>
    obtain ⟨-, -, hstaged⟩ := hbegin
    exact .prefetch hstaged htr
  · exact .stay

theorem stageCommand_moves (s : State) : Moves s (stageCommand s) := by
  refine leads_orFault fun m _ => leads_next.2 ?_
  rw [← capture_handoff (nsamp s.params.os s.params.cmdPacketLen) s]
  exact .stage

theorem execIWaitRise_moves (s : State) : Moves s (execIWaitRise s) := by
  unfold execIWaitRise
  split
  · exact stageCommand_moves s
  · exact leads_next.2 .giveUp
  · exact leads_next.2 .stay

/-! ### The engine (42_bus_fsm.md R193 to R216) -/

section Engine

variable {s : State} (htr : s.trState = .idle)
include htr

theorem execBusReset_moves (heng : noCommand s.eng = true) : Moves s (execBusReset s) :=
  leads_next.2 (.busReset htr heng)

theorem execEIdle_moves (heng : s.eng = .idle) : Moves s (execEIdle s) := by
  have hnone : noCommand s.eng = true := by rw [heng]; rfl
  unfold execEIdle
  split
  · exact execBusReset_moves htr hnone
  · exact leads_next.2 (.follow .enable htr hnone rfl)
  · exact leads_next.2 .stay

theorem execEReset_moves (heng : s.eng = .reset) : Moves s (execEReset s) := by
  have hnone : noCommand s.eng = true := by rw [heng]; rfl
  unfold execEReset
  split
  · exact leads_next.2 .stay
  · exact leads_next.2 (.follow .idle htr hnone rfl)
  · exact leads_next.2 (.follow .idle htr hnone rfl)

/-- A command that leaves the engine before the device layer has it. -/
theorem drop_move (hheld : s.staged = true ∨ noCommand s.eng = false) (heng : s.eng ≠ .device) (e : Err) :
    HandoffMove s.handoff (dropCommand e s).handoff := .finish htr hheld heng

theorem claimAs_move (hstaged : s.staged = true) (heng : s.eng = .enable) {kind : CurKind} (hkind : kind ≠ .none)
    (target : Option Nat) : HandoffMove s.handoff (claimAs kind target s).handoff := by
  cases target with
  | none => exact .finish htr (.inl hstaged) (by simp [State.handoff, heng])
  | some i => exact .claim kind hkind htr hstaged heng

theorem execInitCmd_moves (hstaged : s.staged = true) (heng : s.eng = .enable) : Moves s (execInitCmd s) :=
  leads_next.2 (claimAs_move htr hstaged heng (by decide) _)

theorem claimStaged_moves (hstaged : s.staged = true) (heng : s.eng = .enable) : Moves s (claimStaged s) := by
  have hnot : s.eng ≠ .device := by simp [heng]
  unfold claimStaged
  split_ifs
  · exact leads_next.2 (drop_move htr (.inl hstaged) hnot _)
  · exact leads_next.2 (drop_move htr (.inl hstaged) hnot _)
  · refine leads_orFault fun b _ => ?_
    split <;> exact leads_next.2 (claimAs_move htr hstaged heng (by decide) _)

theorem execEEnable_moves (heng : s.eng = .enable) : Moves s (execEEnable s) := by
  have hnone : noCommand s.eng = true := by rw [heng]; rfl
  unfold execEEnable
  split
  · exact execBusReset_moves htr hnone
  · exact leads_next.2 (.follow .idle htr hnone rfl)
  · split
    · next hstaged => exact claimStaged_moves htr hstaged heng
    · exact leads_next.2 .stay

theorem execEClaimWait_moves (heng : s.eng = .claimWait) : Moves s (execEClaimWait s) := by
  unfold execEClaimWait
  split
  · exact leads_next.2 (.decode heng)
  · exact leads_next.2 (drop_move htr (.inr (by rw [heng]; rfl)) (by simp [heng]) _)
  · exact leads_next.2 .stay

/-- The assignment of an INIT, in a state with the handoff of `s`. -/
theorem assignInit_moves (heng : s.eng = .decode) (hkind : s.curKind = .init) (r : DecRec) :
    Moves s (assignInit r s) := by
  refine leads_orFault fun t ht => leads_next.2 ?_
  obtain ⟨-, rfl⟩ := startSend_ok ht
  exact .assign heng htr hkind

theorem execEDecode_moves (heng : s.eng = .decode) : Moves s (execEDecode s) := by
  refine withStaged_leads_of_lastChk fun d c v => ?_
  cases d with
  | good r rx =>
    simp only
    split
    · next hkind => exact assignInit_moves (s := { s with lastChk := c, lastChkV := v }) htr heng hkind r
    · next hkind => exact leads_next.2 (.dispatch heng htr hkind)
  | bad e rx =>
    simp only
    split
    · exact leads_next.2 (drop_move htr (.inr (by rw [heng]; rfl)) (by simp [heng]) e)
    · next hkind => exact leads_next.2 (.dispatch heng htr hkind)

theorem execInitAssign_moves (heng : s.eng = .decode) (hkind : s.curKind = .init) : Moves s (execInitAssign s) := by
  refine withStaged_leads_of_lastChk fun d c v => ?_
  cases d with
  | good r rx => exact assignInit_moves (s := { s with lastChk := c, lastChkV := v }) htr heng hkind r
  | bad e rx => exact leads_next.2 .stay

theorem execDispatchCmd_moves (heng : s.eng = .decode) (hkind : s.curKind ≠ .init) :
    Moves s (execDispatchCmd s) := by
  refine withStaged_leads_of_lastChk fun d c v => ?_
  cases d with
  | good r rx => exact leads_next.2 (.dispatch heng htr hkind)
  | bad e rx => exact leads_next.2 .stay

theorem execDispatchIoerror_moves (heng : s.eng = .decode) (hkind : s.curKind ≠ .init) :
    Moves s (execDispatchIoerror s) := by
  refine withStaged_leads_of_lastChk fun d c v => ?_
  cases d with
  | good r rx => exact leads_next.2 .stay
  | bad e rx => exact leads_next.2 (.dispatch heng htr hkind)

theorem dispatchCommand_moves (heng : s.eng = .decode) (hkind : s.curKind ≠ .init) (data : List Byte) :
    Moves s (dispatchCommand data s) := by
  refine withStaged_leads_of_lastChk fun d c v => ?_
  cases d with
  | good r rx =>
    simp only
    split
    · exact leads_next.2 (.dispatch heng htr hkind)
    · exact leads_next.2 .stay
  | bad e rx => exact leads_next.2 .stay

theorem execEInitReply_moves (heng : s.eng = .initReply) : Moves s (execEInitReply s) :=
  leads_next.2 (.finish htr (.inr (by simp [State.handoff, heng, noCommand])) (by simp [State.handoff, heng]))

theorem engStep_moves : Moves s (engStep s) := by
  unfold engStep
  split
  · next heng => exact execEIdle_moves htr heng
  · next heng => exact execEReset_moves htr heng
  · next heng => exact execEEnable_moves htr heng
  · next heng => exact execEClaimWait_moves htr heng
  · next heng => exact execEDecode_moves htr heng
  · next heng => exact execEInitReply_moves htr heng
  · exact leads_next.2 .stay
  · exact leads_next.2 (.release htr)

end Engine

/-! ### Every operation (42_bus_fsm.md R192) -/

theorem execPollDispatch_moves (s : State) : Moves s (execPollDispatch s) := by
  unfold execPollDispatch
  split
  · next hwait => exact execSWaitRise_moves hwait
  · exact execSWaitFall_moves s
  · next hwait => exact execRWaitRise_moves hwait
  · exact execRWaitFall_moves s
  · next htr =>
    split
    · next htake =>
      have hsame := sameHandoff_takeRequest htake
      exact (servePort_moves _ _ _).mono fun _ hmove => hsame ▸ hmove
    · exact engStep_moves htr

/-- Where POLL's next step is an ENG step, no transfer is under way. -/
theorem engEnabled_iff {e : Eng} {s : State} :
    engEnabled e s = true ↔
      pollHasStep s = true ∧ s.trState = .idle ∧ requestOffered s = false ∧ s.eng = e := by
  simp [engEnabled, and_assoc]

theorem commandEnabled_handoff {data : List Byte} {s : State} (h : commandEnabled data s = true) :
    s.trState = .idle ∧ s.eng = .decode ∧ s.curKind ≠ .init := by
  simp only [commandEnabled, Bool.and_eq_true, engEnabled_iff, beq_iff_eq] at h
  simp [h]

theorem exec_moves {i : Instr} {s : State} (hen : enabled i s = true) : Moves s (exec i s) := by
  cases i with
  | addDevice who slot dtype => exact (execAddDevice_sameHandoff who slot dtype s).moves
  | removeDevice who slot => exact (execRemoveDevice_sameHandoff who slot s).moves
  | setActive who addr v => exact (execSetActive_sameHandoff who addr v s).moves
  | setActiveSlot who slot v => exact (execSetActiveSlot_sameHandoff who slot v s).moves
  | deviceByAddr who addr => exact (execDeviceByAddr_sameHandoff who addr s).moves
  | encodePacket who src ptype status n data =>
    exact (execEncodePacket_sameHandoff who src ptype status n data s).moves
  | decodePacket who n data => exact (execDecodePacket_sameHandoff who n data s).moves
  | sendReply who ptype status n data => exact execSendReply_moves who ptype status n data s
  | recvData who n => exact execRecvData_moves who n s
  | devDone who => exact execDevDone_moves who s
  | portReserved who op => exact leads_next.2 (.of_same (sameHandoff_refuse who s))
  | pollDispatch => exact execPollDispatch_moves s
  | eIdle | eReset | eEnable | eClaimWait | eDecode | eInitReply | eDevice | eFinish =>
    obtain ⟨-, htr, -, heng⟩ := engEnabled_iff.1 hen
    have hmoves := engStep_moves htr
    rw [engStep, heng] at hmoves
    exact hmoves
  | busReset =>
    simp only [enabled, Bool.and_eq_true, Bool.or_eq_true, engEnabled_iff] at hen
    obtain ⟨⟨-, htr, -, heng⟩ | ⟨-, htr, -, heng⟩, -⟩ := hen
    all_goals exact execBusReset_moves htr (by rw [heng]; rfl)
  | claim =>
    simp only [enabled, Bool.and_eq_true, engEnabled_iff] at hen
    obtain ⟨⟨⟨-, htr, -, heng⟩, -⟩, hstaged⟩ := hen
    exact claimStaged_moves htr hstaged heng
  | initCmd =>
    simp only [enabled, Bool.and_eq_true, engEnabled_iff] at hen
    obtain ⟨⟨⟨⟨-, htr, -, heng⟩, -⟩, hstaged⟩, -⟩ := hen
    exact execInitCmd_moves htr hstaged heng
  | initAssign =>
    simp only [enabled, Bool.and_eq_true, engEnabled_iff, beq_iff_eq] at hen
    obtain ⟨⟨⟨-, htr, -, heng⟩, hkind⟩, -⟩ := hen
    exact execInitAssign_moves htr heng hkind
  | dispatchCmd =>
    simp only [enabled, Bool.and_eq_true, engEnabled_iff, beq_iff_eq] at hen
    obtain ⟨⟨⟨-, htr, -, heng⟩, hkind⟩, -⟩ := hen
    exact execDispatchCmd_moves htr heng (by simp [hkind])
  | dispatchIoerror =>
    simp only [enabled, Bool.and_eq_true, engEnabled_iff, beq_iff_eq] at hen
    obtain ⟨⟨⟨-, htr, -, heng⟩, hkind⟩, -⟩ := hen
    exact execDispatchIoerror_moves htr heng (by simp [hkind])
  | sWaitRise => exact execSWaitRise_moves (trState_of_trEnabled hen)
  | sWaitFall => exact execSWaitFall_moves s
  | rWaitRise => exact execRWaitRise_moves (trState_of_trEnabled hen)
  | rWaitFall => exact execRWaitFall_moves s
  | isrStart =>
    obtain ⟨-, htr, -⟩ := (isrCanStart_iff s).1 hen
    exact execIsrStart_moves htr
  | iWaitRise => exact execIWaitRise_moves s
  | isrStage => exact stageCommand_moves s
  | cmdStatus80 | cmdRead81 | cmdWrite82 | cmdControl84 | cmdOpen86 | cmdClose87 | cmdRead88 | cmdWrite89
  | cmdNone =>
    obtain ⟨htr, heng, hkind⟩ := commandEnabled_handoff hen
    exact dispatchCommand_moves htr heng hkind _
  | _ => exact leads_next.2 .stay

/-- Settles O52, by cases on what the step is: a power-on reset starts from an idle handoff, the environment touches
none of these registers, and an operation whose agent has the step makes one of the moves. -/
theorem everyStepKeepsHandoff : Obligations.EveryStepKeepsHandoff := by
  intro s t h hstep
  obtain ⟨rest, -, rfl⟩ | henv | ⟨i, s', ⟨hs', hen⟩, hexec⟩ := step_cases hstep
  · exact handoffOk_powerOn s.params s.phase s.reqPin
  · rw [henv]
    exact h
  · have h' : HandoffOk s' := by
      rw [hs']
      exact h
    exact (handoffOk_iff t).2 (((handoffOk_iff s').1 h').move (exec_moves hen t hexec))

end Sys2Proof.Machine
end

section
/-! PROOFS. The prefetch interrupt (O28 to O30), that POLL's state stands still while it is active or about to start
(O54), and the classes of phase vectors (O32). -/

namespace Sys2Proof.Machine

/-! ### The prefetch (42_bus_fsm.md R224 to R227) -/

/-- Settles O28: the guards are the enabling condition's, and the entry is the model's. -/
theorem interruptEntryTakesTheRequest : Obligations.InterruptEntryTakesTheRequest :=
  fun s => ⟨isrCanStart_iff s, rfl⟩

/-- The stage of a captured command; the body fits the mailbox. -/
theorem stageCommand_eq (s : State) :
    stageCommand s = .next
      { (capture (nsamp s.params.os s.params.cmdPacketLen) s).2 with
        mb := writeBytes 0
          (deserialize s.params (capture (nsamp s.params.os s.params.cmdPacketLen) s).1).2 s.mb,
        mbLen := (deserialize s.params (capture (nsamp s.params.os s.params.cmdPacketLen) s).1).2.length,
        mbLock := (deserialize s.params (capture (nsamp s.params.os s.params.cmdPacketLen) s).1).1,
        staged := true, isrState := .idle } := by
  unfold stageCommand
  simp only [memWrite_of_fits ((Nat.zero_add _).trans_le (deserialize_length _ _))]
  rfl

/-- Settles O29: each outcome of the bounded wait, and the stage itself. -/
theorem prefetchStagesTheCommand : Obligations.PrefetchStagesTheCommand := by
  intro s
  have hexec : exec .iWaitRise s = execIWaitRise s := rfl
  refine ⟨⟨_, _, rfl, capture_state _ s, stageCommand_eq s⟩, ?_⟩
  rw [hexec]
  split_ifs with hreq hlimit
  · rw [execIWaitRise, waitReq_success.2 hreq]
    rfl
  · rw [execIWaitRise, waitReq_timeout.2 ⟨hreq, hlimit⟩]
    rfl
  · rw [execIWaitRise, waitReq_stay.2 ⟨hreq, hlimit⟩]

/-- What an ISR step may write (R227): its own registers, the mailbox, STAGED to 1; with them what HOST has queued and
the draw counter. -/
def IsrWrites (s t : State) : Prop :=
  t = { s with
        isrState := t.isrState, isrT0 := t.isrT0, irqPend := t.irqPend, mb := t.mb, mbLen := t.mbLen,
        mbLock := t.mbLock, staged := t.staged, hostLine := t.hostLine, samples := t.samples, draws := t.draws }
    ∧ (s.staged = true → t.staged = true)

theorem execIsrStart_isrWrites (s : State) : Leads (IsrWrites s) (execIsrStart s) := by
  refine leads_next.2 ?_
  obtain h | h := takeInterrupt_cases s <;> rw [h] <;> exact ⟨rfl, id⟩

theorem stageCommand_isrWrites (s : State) : Leads (IsrWrites s) (stageCommand s) := by
  rw [stageCommand_eq, capture_state]
  exact leads_next.2 ⟨rfl, fun _ => rfl⟩

theorem execIWaitRise_isrWrites (s : State) : Leads (IsrWrites s) (execIWaitRise s) := by
  unfold execIWaitRise
  split
  · exact stageCommand_isrWrites s
  · exact leads_next.2 ⟨rfl, id⟩
  · exact leads_next.2 ⟨rfl, id⟩

/-- Settles O30, by cases on which of ISR's three steps it is. -/
theorem interruptWritesOnlyItsRegisters : Obligations.InterruptWritesOnlyItsRegisters := by
  rintro i s t (rfl | rfl | rfl) hexec
  · exact execIsrStart_isrWrites s t hexec
  · exact execIWaitRise_isrWrites s t hexec
  · exact stageCommand_isrWrites s t hexec

/-! ### Preemption (42_bus_fsm.md R228, 20_memory.md R72) -/

/-- What the steps of ISR, TIMER and HOST may write. -/
def OffPollWrites (s t : State) : Prop :=
  t = { s with
    isrState := t.isrState, isrT0 := t.isrT0, irqPend := t.irqPend, mb := t.mb, mbLen := t.mbLen, mbLock := t.mbLock,
    staged := t.staged, hostLine := t.hostLine, samples := t.samples, draws := t.draws, timer := t.timer,
    prevPhase := t.prevPhase, phase := t.phase }

theorem IsrWrites.offPoll {s t : State} (h : IsrWrites s t) : OffPollWrites s t := by
  obtain ⟨ht, -⟩ := h
  rw [ht]
  rfl

theorem not_portEnabled {s : State} (hpoll : pollHasStep s = false) (who : Issuer) : portEnabled who s ≠ true := by
  simp [portEnabled, hpoll]

theorem not_engEnabled {s : State} (hpoll : pollHasStep s = false) (e : Eng) : engEnabled e s = false := by
  simp [engEnabled, hpoll]

theorem not_trEnabled {s : State} (hpoll : pollHasStep s = false) (tr : TrState) : trEnabled tr s ≠ true := by
  simp [trEnabled, hpoll]

theorem not_commandEnabled {s : State} (hpoll : pollHasStep s = false) (data : List Byte) :
    commandEnabled data s ≠ true := by
  simp [commandEnabled, not_engEnabled hpoll]

/-- Where POLL has no step, the operation is ISR's, TIMER's or HOST's. -/
theorem exec_offPoll {i : Instr} {s : State} (hpoll : pollHasStep s = false) (hen : enabled i s = true) :
    Leads (OffPollWrites s) (exec i s) := by
  cases i with
  | addDevice | removeDevice | setActive | setActiveSlot | deviceByAddr | encodePacket | decodePacket | sendReply
  | recvData | devDone | portReserved => exact absurd hen (not_portEnabled hpoll _)
  | pollDispatch => exact absurd hen (by simp [enabled, hpoll])
  | eIdle | eReset | eEnable | eClaimWait | eDecode | eInitReply | eDevice | eFinish | busReset | claim | initAssign
  | dispatchCmd | dispatchIoerror | initCmd => simp [enabled, not_engEnabled hpoll] at hen
  | sWaitRise | sWaitFall | rWaitRise | rWaitFall => exact absurd hen (not_trEnabled hpoll _)
  | cmdStatus80 | cmdRead81 | cmdWrite82 | cmdControl84 | cmdOpen86 | cmdClose87 | cmdRead88 | cmdWrite89
  | cmdNone => exact absurd hen (not_commandEnabled hpoll _)
  | isrStart => exact (execIsrStart_isrWrites s).mono fun _ => IsrWrites.offPoll
  | iWaitRise => exact (execIWaitRise_isrWrites s).mono fun _ => IsrWrites.offPoll
  | isrStage => exact (stageCommand_isrWrites s).mono fun _ => IsrWrites.offPoll
  | _ => exact leads_next.2 rfl

/-- An operation that is scheduled where POLL has no step, seen from before it was fetched. -/
theorem Scheduled.offPoll {s s' t : State} {i : Instr} (h : Scheduled s i s') (hpoll : pollHasStep s = false)
    (hexec : exec i s' = .next t) : ∃ es turn, OffPollWrites { s with script := es, turn := turn } t := by
  obtain ⟨hs', hen⟩ := h
  rw [hs'] at hen hexec
  exact ⟨_, _, exec_offPoll (s := { s with script := s'.script, turn := s'.turn }) hpoll hen t hexec⟩

/-- POLL's registers and LAST_CHK are as they were. -/
def PollStandsStill (s t : State) : Prop :=
  SamePollState s t ∧ t.lastChk = s.lastChk ∧ t.lastChkV = s.lastChkV

theorem OffPollWrites.standsStill {s t : State} (h : OffPollWrites s t) : PollStandsStill s t := by
  rw [h]
  simp [PollStandsStill, SamePollState]

theorem EnvironmentStep.standsStill {s t : State} (h : EnvironmentStep s t) : PollStandsStill s t := by
  rw [h]
  simp [PollStandsStill, SamePollState]

theorem step_pollStandsStill {s t : State} (hpoll : pollHasStep s = false) (hpower : powerOnNext s = false)
    (h : step s = .next t) : PollStandsStill s t := by
  obtain ⟨rest, hscript, -⟩ | henv | ⟨i, s', hsched, hexec⟩ := step_cases h
  · rw [powerOnNext, hscript] at hpower
    cases hpower
  · exact henv.standsStill
  · obtain ⟨es, turn, hoff⟩ := hsched.offPoll hpoll hexec
    exact hoff.standsStill

/-! ### An offered request waits (42_bus_fsm.md R192, R228) -/

/-- A request that is offered stays offered. -/
def KeepsOffers (s t : State) : Prop :=
  (s.reqApp ≠ none → t.reqApp = s.reqApp) ∧ (s.reqDev ≠ none → t.reqDev = s.reqDev)

theorem KeepsOffers.of_eq {s t : State} (happ : t.reqApp = s.reqApp) (hdev : t.reqDev = s.reqDev) :
    KeepsOffers s t := ⟨fun _ => happ, fun _ => hdev⟩

/-- An issuer whose request waits offers no other. -/
theorem offer_keepsOffers (who : Issuer) (r : Request) (s : State) : KeepsOffers s (offer who r s) := by
  unfold offer
  split
  · exact .of_eq rfl rfl
  · next hfree =>
    cases who with
    | app =>
      have hnone : s.reqApp = none := by simpa [waiting] using hfree
      exact ⟨fun h => absurd hnone h, fun _ => rfl⟩
    | devlayer =>
      have hnone : s.reqDev = none ∧ s.busy = false := by simpa [waiting] using hfree
      exact ⟨fun _ => rfl, fun h => absurd hnone.1 h⟩

theorem csrRead_keepsOffers (addr width : Nat) (s : State) : Leads (KeepsOffers s) (csrRead addr width s) :=
  leads_orFault fun _ _ => leads_next.2 (.of_eq rfl rfl)

theorem csrWrite_keepsOffers (addr width : Nat) (v : Word32) (s : State) :
    Leads (KeepsOffers s) (csrWrite addr width v s) := by
  refine leads_orFault fun off _ => ?_
  split <;> exact leads_next.2 (.of_eq rfl rfl)

theorem driveReq_keepsOffers (v : Bool) (s : State) : KeepsOffers s (driveReq v s) := by
  rw [(driveReq_frame v s).1]
  exact .of_eq rfl rfl

/-- An entry that runs no operation, other than a power-on reset, takes no request away. -/
theorem fetchEntry_keepsOffers {e : Entry} (he : e ≠ .powerOn) {s : State} {o : Out}
    (h : fetchEntry e s = .done o) : Leads (KeepsOffers s) o := by
  cases e with
  | code f bs =>
    simp only [fetchEntry, fetchCode] at h
    split at h
    · cases h
      exact leads_refused _ _
    · split at h <;> cases h
      exact leads_next.2 (.of_eq rfl rfl)
  | req v => cases h; exact leads_next.2 (driveReq_keepsOffers v s)
  | line bytes => cases h; exact leads_next.2 (.of_eq rfl rfl)
  | samples xs => cases h; exact leads_next.2 (.of_eq rfl rfl)
  | readTx k => cases h; exact leads_next.2 (.of_eq rfl rfl)
  | offer who r => cases h; exact leads_next.2 (offer_keepsOffers who r s)
  | csrRead who addr width =>
    cases h
    split
    · exact leads_next.2 (.of_eq rfl rfl)
    · exact csrRead_keepsOffers addr width s
  | csrWrite who addr width v =>
    cases h
    split
    · exact leads_next.2 (.of_eq rfl rfl)
    · exact csrWrite_keepsOffers addr width v s
  | powerOn => exact absurd rfl he
  | run k =>
    simp only [fetchEntry] at h
    split at h
    · cases h
      exact leads_next.2 (.of_eq rfl rfl)
    · exact absurd h (reference_ne_done _ o)
  | runUntil c b =>
    simp only [fetchEntry] at h
    split_ifs at h
    · cases h
      exact leads_next.2 (.of_eq rfl rfl)
    · cases h
      exact leads_next.2 (.of_eq rfl rfl)
    · exact absurd h (reference_ne_done _ o)
  | await who =>
    simp only [fetchEntry] at h
    split at h
    · cases h
      exact leads_next.2 (.of_eq rfl rfl)
    · exact absurd h (reference_ne_done _ o)
  | expectTx bytes => cases h; exact leads_next.2 (.of_eq rfl rfl)

theorem fetch_keepsOffers {s : State} {o : Out} (hpower : powerOnNext s = false) (h : fetch s = .done o) :
    Leads (KeepsOffers s) o := by
  unfold fetch at h
  split at h
  · exact absurd h (reference_ne_done s o)
  · next e rest hscript =>
    have he : e ≠ .powerOn := by
      rintro rfl
      rw [powerOnNext, hscript] at hpower
      cases hpower
    exact fetchEntry_keepsOffers (s := { s with script := rest }) he h

theorem step_keepsOffers {s t : State} (hpoll : pollHasStep s = false) (hpower : powerOnNext s = false)
    (h : step s = .next t) : KeepsOffers s t := by
  unfold step at h
  cases hfetch : fetch s with
  | run i s' =>
    rw [hfetch] at h
    obtain ⟨es, turn, hoff⟩ := (scheduled_of_fetch hfetch).offPoll hpoll h
    rw [hoff]
    exact .of_eq rfl rfl
  | done o =>
    rw [hfetch] at h
    exact fetch_keepsOffers hpower hfetch t h

/-- Settles O54: the environment touches no register of POLL's and takes no request away, and where POLL has no step an
operation is ISR's, TIMER's or HOST's. -/
theorem interruptPreemptsPoll : Obligations.InterruptPreemptsPoll := by
  intro s t hpoll hpower hstep
  obtain ⟨hsame, hchk, hchkV⟩ := step_pollStandsStill hpoll hpower hstep
  exact ⟨hsame, hchk, hchkV, step_keepsOffers hpoll hpower hstep⟩

/-! ### The classes of phase vectors (42_bus_fsm.md R190) -/

/-- Settles O32: membership in general, and the sixteen vectors of the default sets by evaluation. -/
theorem phaseVectorsAreClassified : Obligations.PhaseVectorsAreClassified := by
  refine ⟨fun P p => ?_, by decide⟩
  simp only [classify, List.contains_iff_mem]

end Sys2Proof.Machine
end

section
/-! PROOFS. The service engine, step by step: a POLL step and that it completes (O12), the states that sample the phase
(O13, O14), the claim and its routing (O15 to O17), the wait for REQ (O18), the decode, the assignment of an INIT and
the dispatch (O19 to O21), and the end of a command (O10, O23). -/

namespace Sys2Proof.Machine

/-! ### Phase, completion and DEV_DONE (42_bus_fsm.md R193 to R198, R214, R216, R217) -/

/-- Settles O13, by cases on the class of the sampled phase. -/
theorem engineStatesThatSamplePhase : Obligations.EngineStatesThatSamplePhase := by
  intro s
  split
  · next h => simp only [exec, execEIdle, execEReset, execEEnable, execBusReset, phaseClass, h, and_self]
  · next h => simp only [exec, execEIdle, execEReset, execEEnable, execClaim, phaseClass, h, and_self]
  · next h => simp only [exec, execEIdle, execEReset, execEEnable, phaseClass, h, and_self]

/-- Settles O14: it is the model's definition of a bus reset. -/
theorem busResetClearsAddresses : Obligations.BusResetClearsAddresses := fun _ => rfl

/-- Settles O23: both are the model's own updates. -/
theorem finishReleasesEverything : Obligations.FinishReleasesEverything := fun _ => ⟨rfl, rfl⟩

theorem admitsDone_devlayer {s : State} : admitsDone .devlayer s = true ↔ s.eng = .device ∧ s.trState = .idle := by
  simp [admitsDone]

theorem execDevDone_refused {who : Issuer} {s : State} (h : admitsDone who s = false) :
    execDevDone who s = .next (refuse who s) := by
  rw [execDevDone, h]
  rfl

/-- Settles O10, by whether the request is admitted. -/
theorem devDoneEndsDispatch : Obligations.DevDoneEndsDispatch := by
  intro s
  have hexec (who : Issuer) : exec (.devDone who) s = execDevDone who s := rfl
  rw [hexec, hexec, execDevDone_refused (who := .app) rfl]
  refine ⟨?_, refuses_refuse .app s, rfl⟩
  split_ifs with hadmit
  · rw [execDevDone, admitsDone_devlayer.2 hadmit]
    exact ⟨_, rfl, rfl⟩
  · rw [execDevDone_refused (Bool.eq_false_of_not_eq_true (mt admitsDone_devlayer.1 hadmit))]
    exact refuses_refuse .devlayer s

/-! ### The claim (42_bus_fsm.md R201 to R207) -/

/-- The claim of a locked body with a header goes by its opcode. -/
theorem claimStaged_of_locked {s : State} {b : List Byte} (hlock : s.mbLock = true) (hlen : 7 ≤ s.mbLen)
    (hb : memRead s.params s.mb 0 s.mbLen = .ok b) :
    claimStaged s = .next
      (if peekOpcode b = some 0x85#8 then claimAs .init (initTarget s) s
        else claimAs .cmd (route (peekDest b) s) s) := by
  rw [claimStaged, if_neg (by simp [hlock]), if_neg (by omega), hb, orFault]
  split_ifs <;> rfl

/-- Settles O15: the drop of an unlocked or short body, and the two kinds of a claim. -/
theorem claimRoutesStagedCommand : Obligations.ClaimRoutesStagedCommand := by
  intro s
  have hexec : exec .claim s = claimStaged s := rfl
  rw [hexec]
  refine ⟨fun hlock => ?_, fun hlock hshort => ?_, fun hlock hlen b hb => ?_⟩
  · rw [claimStaged, if_pos hlock]
    rfl
  · rw [claimStaged, if_neg (by simp [hlock]), if_pos hshort]
    rfl
  · rw [claimStaged_of_locked hlock hlen hb]
    split_ifs <;> rfl

/-- Settles O16: INIT's row is the INIT branch of the claim. -/
theorem initTargetsFirstUnaddressed : Obligations.InitTargetsFirstUnaddressed := by
  refine fun s => ⟨rfl, fun b hlock hlen hb hop => ?_⟩
  exact (claimStaged_of_locked hlock hlen hb).trans (congrArg _ (if_pos hop))

theorem route_some {d : Byte} {s : State} {i : Nat} (h : route d s = some i) :
    i ∈ s.chain ∧ (devAt s i).active = true ∧ (devAt s i).addr ≠ 0#8 ∧ (devAt s i).addr = d := by
  obtain ⟨hmem, htest⟩ := firstInChain_some h
  simp only [Bool.and_eq_true, bne_iff_ne, beq_iff_eq] at htest
  obtain ⟨⟨hactive, hne⟩, haddr⟩ := htest
  exact ⟨hmem, hactive, hne, haddr⟩

theorem route_none_iff {d : Byte} {s : State} :
    route d s = none ↔ ∀ j ∈ s.chain, (devAt s j).active = true → (devAt s j).addr = d → (devAt s j).addr = 0#8 := by
  simp only [route, firstInChain, List.find?_eq_none, Bool.and_eq_true, bne_iff_ne, beq_iff_eq, ne_eq, not_and,
    and_imp]
  refine forall₂_congr fun j _ => forall_congr' fun _ => ?_
  exact ⟨fun h hd => by_contra fun hne => h hne hd, fun h hne hd => hne (h hd)⟩

/-- The one active device with a non-zero address is routed to. -/
theorem route_of_unique {d : Byte} {s : State} {i : Nat} (hi : i ∈ s.chain) (hactive : (devAt s i).active = true)
    (haddr : (devAt s i).addr = d) (hd : d ≠ 0#8)
    (honly : ∀ j ∈ s.chain, (devAt s j).active = true → (devAt s j).addr = d → j = i) : route d s = some i := by
  cases hroute : route d s with
  | none => exact absurd (route_none_iff.1 hroute i hi hactive haddr) (haddr ▸ hd)
  | some j =>
    obtain ⟨hj, hjactive, -, hjaddr⟩ := route_some hroute
    rw [honly j hj hjactive hjaddr]

/-- Settles O17: routing finds the one addressed device, or none, and the claim follows it. -/
theorem routingReachesTheAddressedDevice : Obligations.RoutingReachesTheAddressedDevice := by
  intro s b hlock hlen hb hop
  have hclaim : exec .claim s = .next (claimAs .cmd (route (peekDest b) s) s) :=
    (claimStaged_of_locked hlock hlen hb).trans (congrArg _ (if_neg hop))
  rw [hclaim]
  refine ⟨fun i hi hactive haddr hd honly => ?_, fun hnone => ?_⟩
  · rw [route_of_unique hi hactive haddr hd honly]
    exact ⟨_, rfl, rfl, rfl, rfl, rfl, rfl⟩
  · rw [route_none_iff.2 hnone]
    rfl

/-- Settles O18: each outcome of the bounded wait. -/
theorem claimWaitsForReqToFall : Obligations.ClaimWaitsForReqToFall := by
  intro s
  have hexec : exec .eClaimWait s = execEClaimWait s := rfl
  rw [hexec]
  split_ifs with hreq hlimit
  · rw [execEClaimWait, waitReq_success.2 hreq]
  · rw [execEClaimWait, waitReq_timeout.2 ⟨hreq, hlimit⟩]
    rfl
  · rw [execEClaimWait, waitReq_stay.2 ⟨hreq, hlimit⟩]

/-! ### Decode, assignment and dispatch (42_bus_fsm.md R210 to R215) -/

/-- A decode of the staged body that fails hands on the error, with LAST_CHK written if a checksum was read. -/
theorem withStaged_bad {s : State} {b : List Byte} {e : Err} {rx : Option Byte} (k : DecodeResult → State → Out)
    (hb : memRead s.params s.mb 0 s.mbLen = .ok b)
    (hd : decodeBody s.params s.lastChk s.lastChkV b = .bad e rx) :
    withStaged s k = k (.bad e rx) (afterDecode rx s) := by
  simp only [withStaged, hb, orFault, runDecode_eq, hd, DecodeResult.rx]

theorem execEDecode_good {s : State} {b : List Byte} {rec : DecRec} {rx : Byte}
    (hb : memRead s.params s.mb 0 s.mbLen = .ok b)
    (hd : decodeBody s.params s.lastChk s.lastChkV b = .good rec rx) :
    execEDecode s =
      if s.curKind = .init then assignInit rec { s with lastChk := rx, lastChkV := true }
      else dispatched rec rx (capOf s.params rec.opcode) s := by
  rw [execEDecode, withStaged_good _ hb hd]
  rfl

theorem execInitAssign_good {s : State} {b : List Byte} {rec : DecRec} {rx : Byte}
    (hb : memRead s.params s.mb 0 s.mbLen = .ok b)
    (hd : decodeBody s.params s.lastChk s.lastChkV b = .good rec rx) :
    execInitAssign s = assignInit rec { s with lastChk := rx, lastChkV := true } := by
  rw [execInitAssign, withStaged_good _ hb hd]

theorem execDispatchCmd_good {s : State} {b : List Byte} {rec : DecRec} {rx : Byte}
    (hb : memRead s.params s.mb 0 s.mbLen = .ok b)
    (hd : decodeBody s.params s.lastChk s.lastChkV b = .good rec rx) :
    execDispatchCmd s = dispatched rec rx (capOf s.params rec.opcode) s := by
  rw [execDispatchCmd, withStaged_good _ hb hd]
  rfl

theorem execDispatchIoerror_bad {s : State} {b : List Byte} {e : Err} {rx : Option Byte}
    (hb : memRead s.params s.mb 0 s.mbLen = .ok b)
    (hd : decodeBody s.params s.lastChk s.lastChkV b = .bad e rx) :
    execDispatchIoerror s = .next (dispatchError (raise e (afterDecode rx s))) := by
  rw [execDispatchIoerror, withStaged_bad _ hb hd]

theorem execEDecode_bad {s : State} {b : List Byte} {e : Err} {rx : Option Byte}
    (hb : memRead s.params s.mb 0 s.mbLen = .ok b)
    (hd : decodeBody s.params s.lastChk s.lastChkV b = .bad e rx) :
    execEDecode s =
      if s.curKind = .init then .next { raise e (afterDecode rx s) with eng := .finish }
      else .next (dispatchError (raise e (afterDecode rx s))) := by
  have hkind : (afterDecode rx s).curKind = s.curKind := by cases rx <;> rfl
  rw [execEDecode, withStaged_bad _ hb hd]
  simp only [hkind]

/-- Settles O19, by what decode answers. -/
theorem decodeStepAssignsOrDispatches : Obligations.DecodeStepAssignsOrDispatches := by
  intro s b hb
  split
  · next rec rx hd =>
    have hstep := execEDecode_good hb hd
    split
    · next hkind => exact (hstep.trans (if_pos hkind)).trans (execInitAssign_good hb hd).symm
    · next hkind => exact hstep.trans (if_neg hkind)
  · next e rx hd =>
    have hdispatch : exec .dispatchIoerror s = execDispatchIoerror s := rfl
    rw [hdispatch, execDispatchIoerror_bad hb hd]
    exact execEDecode_bad hb hd

/-- Settles O21, by what decode answers; the class is OPCODE_CAP's of the first data byte, when there is one. -/
theorem dispatchHandsOverTheCommand : Obligations.DispatchHandsOverTheCommand := by
  intro s b hb
  split
  · next rec rx hd =>
    refine (execDispatchCmd_good hb hd).trans ?_
    obtain ⟨dest, src, ptype, aux, stat, data⟩ := rec
    cases data <;> rfl
  · next e rx hd =>
    have hstep := execDispatchIoerror_bad hb hd
    cases rx <;> exact hstep

/-- Whether another device is left unaddressed does not depend on the slot's own. -/
theorem otherUnaddressed_setDev (i : Nat) (d : Device) (s : State) :
    otherUnaddressed i (setDev i d s) = otherUnaddressed i s := by
  unfold otherUnaddressed
  refine congrArg (List.any s.chain) (funext fun j => ?_)
  by_cases hj : j = i
  · simp [hj]
  · rw [devAt_setDev_other hj]

theorem otherUnaddressed_iff {i : Nat} {s : State} :
    otherUnaddressed i s = true ↔ ∃ j ∈ s.chain, j ≠ i ∧ (devAt s j).active = true ∧ (devAt s j).addr = 0#8 := by
  simp [otherUnaddressed, and_assoc]

/-- CUR_STATUS after the assignment (R213): 0x00 while another device waits for an address. -/
def initStatus (i : Nat) (s : State) : Byte := if otherUnaddressed i s then 0x00#8 else 0xFF#8

/-- The registers of an INIT that has been assigned, its reply not yet sent (R213). -/
def addressed (r : DecRec) (s : State) : State :=
  { setDev s.curSlot { devAt s s.curSlot with addr := r.dest } s with
    curDec := r, curStatus := initStatus s.curSlot s }

theorem assignInit_eq (r : DecRec) (s : State) :
    assignInit r s =
      orFault (startSend (encodeRaw s.params r.dest 0x81#8 (initStatus s.curSlot s) []) (addressed r s))
        (fun t => .next { t with eng := .initReply }) := by
  simp only [assignInit, otherUnaddressed_setDev]
  rfl

/-- The assignment of a decoded INIT, when the 17-byte reply fits TXBUF. -/
theorem assignInit_of_fits {s : State} (hbuf : 17 ≤ s.params.bufLen) (r : DecRec) :
    assignInit r s = .next
      { s with
        dev := s.dev.set s.curSlot { devAt s s.curSlot with addr := r.dest }, curDec := r,
        curStatus := initStatus s.curSlot s,
        txBuf := writeBytes 0 (encodeRaw s.params r.dest 0x81#8 (initStatus s.curSlot s) []) s.txBuf, txLen := 17,
        ack := false, trT0 := s.timer, trLimit := s.params.tSendReqRise, trState := .sWaitRise,
        eng := .initReply } := by
  have hlen : (encodeRaw s.params r.dest 0x81#8 (initStatus s.curSlot s) []).length = 17 :=
    length_encodeRaw s.params r.dest 0x81#8 (initStatus s.curSlot s) []
  rw [assignInit_eq, startSend_of_fits (s := addressed r s) (hlen.trans_le hbuf), hlen]
  rfl

/-- Settles O20: the decode hands on the record, and the assignment is the one above. -/
theorem initAssignsAddressAndReplies : Obligations.InitAssignsAddressAndReplies := by
  intro s b rec rx hb hd hbuf
  refine ⟨initStatus s.curSlot s, ?_, ?_⟩
  · simp only [initStatus, otherUnaddressed_iff]
  · have hexec : exec .initAssign s = execInitAssign s := rfl
    rw [hexec, execInitAssign_good hb hd]
    exact assignInit_of_fits (s := { s with lastChk := rx, lastChkV := true }) hbuf rec

/-! ### What completes (60_exceptions.md R275) -/

/-- The operation ends in a next state: no fault, no refusal of the model. -/
def Completes (o : Out) : Prop := ∃ t, o = .next t

theorem completes_next (t : State) : Completes (.next t) := ⟨t, rfl⟩

theorem completes_orFault {α : Type} {r : Except Fault α} {a : α} {k : α → Out} (hr : r = .ok a)
    (hk : Completes (k a)) : Completes (orFault r k) := by
  rw [hr]
  exact hk

/-- The valid part of a buffer can be read. -/
theorem BufferOk.memRead {P : Params} {m : Memory} {len : Nat} (h : BufferOk P.bufLen m len) :
    ∃ b, memRead P m 0 len = .ok b := by
  obtain ⟨-, -, hlen, hvalue⟩ := h
  exact memRead_valid hlen hvalue

theorem execSendReply_completes {s : State} (hbuf : 17 ≤ s.params.bufLen) (who : Issuer) (ptype status : Byte)
    (n : BitVec 16) (data : List Byte) : Completes (execSendReply who ptype status n data s) := by
  unfold execSendReply
  split_ifs with hrefused hlong
  · exact completes_next _
  · exact completes_next _
  · have hlen : data.length = n.toNat := by simp_all
    have hroom : (encodeRaw s.params (devAt s s.dispSlot).addr ptype status data).length ≤ s.params.bufLen := by
      rw [length_encodeRaw]
      exact packetLen_le_bufLen hbuf (hlen ▸ Nat.le_of_not_lt hlong)
    exact completes_orFault (startSend_of_fits hroom) (completes_next _)

/-- A port request is always answered, or starts a transfer. -/
theorem servePort_completes {s : State} (hbuf : 17 ≤ s.params.bufLen) (who : Issuer) (r : Request) :
    Completes (servePort who r s) := by
  unfold servePort
  cases portKind r.op with
  | addDevice => simp only [execAddDevice]; split_ifs <;> exact completes_next _
  | removeDevice => simp only [execRemoveDevice]; split_ifs <;> exact completes_next _
  | setActive =>
    simp only [execSetActive]
    split
    · exact completes_next _
    · split <;> exact completes_next _
  | setActiveSlot => simp only [execSetActiveSlot]; split_ifs <;> exact completes_next _
  | deviceByAddr => simp only [execDeviceByAddr]; split <;> exact completes_next _
  | encodePacket => simp only [execEncodePacket]; split_ifs <;> exact completes_next _
  | decodePacket =>
    simp only [execDecodePacket]
    split
    · exact completes_next _
    · split <;> exact completes_next _
  | sendReply => exact execSendReply_completes hbuf who _ _ _ _
  | recvData => simp only [execRecvData]; split <;> exact completes_next _
  | devDone => simp only [execDevDone]; split <;> exact completes_next _
  | reserved => exact completes_next _

theorem execSWaitRise_completes {s : State} (h : BufferOk s.params.bufLen s.txBuf s.txLen) :
    Completes (execSWaitRise s) := by
  obtain ⟨raw, hraw⟩ := h.memRead
  unfold execSWaitRise
  split
  · exact completes_next _
  · exact completes_next _
  · exact completes_orFault hraw (completes_next _)

theorem execSWaitFall_completes (s : State) : Completes (execSWaitFall s) := by
  unfold execSWaitFall
  split <;> exact completes_next _

theorem execRWaitRise_completes (s : State) : Completes (execRWaitRise s) := by
  unfold execRWaitRise
  split
  · exact completes_next _
  · exact completes_next _
  · exact completes_orFault (memWrite_of_fits ((Nat.zero_add _).trans_le (deserialize_length _ _)) _)
      (completes_next _)

theorem execRWaitFall_completes {s : State} (h : BufferOk s.params.bufLen s.rxBuf s.rxLen) :
    Completes (execRWaitFall s) := by
  obtain ⟨b, hb⟩ := h.memRead
  unfold execRWaitFall
  split
  · exact completes_next _
  · exact completes_next _
  · split
    · exact completes_next _
    · refine completes_orFault hb ?_
      split <;> exact completes_next _

theorem claimStaged_completes {s : State} (h : BufferOk s.params.bufLen s.mb s.mbLen) :
    Completes (claimStaged s) := by
  obtain ⟨b, hb⟩ := h.memRead
  unfold claimStaged
  split_ifs
  · exact completes_next _
  · exact completes_next _
  · refine completes_orFault hb ?_
    split <;> exact completes_next _

theorem execEDecode_completes {s : State} (hbuf : 17 ≤ s.params.bufLen)
    (h : BufferOk s.params.bufLen s.mb s.mbLen) : Completes (execEDecode s) := by
  obtain ⟨b, hb⟩ := h.memRead
  cases hd : decodeBody s.params s.lastChk s.lastChkV b with
  | good r rx =>
    rw [execEDecode_good hb hd]
    split
    · exact ⟨_, assignInit_of_fits (s := { s with lastChk := rx, lastChkV := true }) hbuf r⟩
    · exact completes_next _
  | bad e rx =>
    rw [execEDecode_bad hb hd]
    split <;> exact completes_next _

theorem engStep_completes {s : State} (hbuf : 17 ≤ s.params.bufLen) (h : BufferOk s.params.bufLen s.mb s.mbLen) :
    Completes (engStep s) := by
  unfold engStep
  cases s.eng with
  | idle => simp only [execEIdle]; split <;> exact completes_next _
  | reset => simp only [execEReset]; split <;> exact completes_next _
  | enable =>
    simp only [execEEnable]
    split
    · exact completes_next _
    · exact completes_next _
    · split
      · exact claimStaged_completes h
      · exact completes_next _
  | claimWait => simp only [execEClaimWait]; split <;> exact completes_next _
  | decode => exact execEDecode_completes hbuf h
  | initReply => exact completes_next _
  | device => exact completes_next _
  | finish => exact completes_next _

/-! ### A POLL step (42_bus_fsm.md R192) -/

theorem execPollDispatch_completes {s : State} (hbuf : 17 ≤ s.params.bufLen) (h : BuffersOk s) :
    Completes (execPollDispatch s) := by
  obtain ⟨htx, hrx, hmb⟩ := h
  unfold execPollDispatch
  cases s.trState with
  | sWaitRise => exact execSWaitRise_completes htx
  | sWaitFall => exact execSWaitFall_completes s
  | rWaitRise => exact execRWaitRise_completes s
  | rWaitFall => exact execRWaitFall_completes hrx
  | idle =>
    simp only
    split
    · next htake =>
      obtain ⟨hP, -⟩ := sameRegistry_takeRequest htake
      exact servePort_completes (hP ▸ hbuf) _ _
    · exact engStep_completes hbuf hmb

/-- A request is served as the operation it decodes to. -/
theorem servePort_eq_exec (who : Issuer) (r : Request) (s : State) :
    servePort who r s = exec (decodeRequest who r) s := by
  unfold servePort decodeRequest
  cases portKind r.op <;> rfl

theorem execPollDispatch_request {s s' : State} {who : Issuer} {r : Request} (htr : s.trState = .idle)
    (htake : takeRequest s = some (who, r, s')) : execPollDispatch s = exec (decodeRequest who r) s' := by
  simp only [execPollDispatch, htr, htake, servePort_eq_exec]

theorem execPollDispatch_eng {s : State} (htr : s.trState = .idle) (htake : takeRequest s = none) :
    execPollDispatch s = engStep s := by
  simp only [execPollDispatch, htr, htake]

theorem takeRequest_none {s : State} (happ : s.reqApp = none) (hdev : s.reqDev = none) : takeRequest s = none := by
  simp only [takeRequest, happ, hdev]

/-- With both issuers waiting, the free value decides. -/
theorem takeRequest_both {s : State} {r r' : Request} (happ : s.reqApp = some r) (hdev : s.reqDev = some r') :
    takeRequest s = some (.app, r, { s with reqApp := none, draws := s.draws + 1 })
      ∨ takeRequest s = some (.devlayer, r', { s with reqDev := none, draws := s.draws + 1 }) := by
  simp only [takeRequest, happ, hdev]
  cases Config.portPick s.draws with
  | true => exact .inl rfl
  | false => exact .inr rfl

/-- Settles O12: with the transport idle, by which issuers offer a request, and with none by the engine's state. -/
theorem pollStepDoesOneOfThree : Obligations.PollStepDoesOneOfThree := by
  intro s
  refine ⟨fun hP hbufs => execPollDispatch_completes hP.1 hbufs, ?_⟩
  have hexec : exec .pollDispatch s = execPollDispatch s := rfl
  rw [hexec]
  split
  · next htr => simp only [execPollDispatch, htr, exec]
  · next htr => simp only [execPollDispatch, htr, exec]
  · next htr => simp only [execPollDispatch, htr, exec]
  · next htr => simp only [execPollDispatch, htr, exec]
  · next htr =>
    split
    · next happ hdev => exact execPollDispatch_request htr (by simp only [takeRequest, happ, hdev])
    · next happ hdev => exact execPollDispatch_request htr (by simp only [takeRequest, happ, hdev])
    · next happ hdev =>
      exact (takeRequest_both happ hdev).imp (execPollDispatch_request htr) (execPollDispatch_request htr)
    · next happ hdev =>
      rw [execPollDispatch_eng htr (takeRequest_none happ hdev)]
      split <;> next heng => simp only [engStep, heng, exec]

end Sys2Proof.Machine
end

section
/-! PROOFS. An idle bus stays idle (O57): each of the three agent steps it can make, the entries of its schedule, and a
step of either. -/

namespace Sys2Proof.Machine

/-! ### What an idle bus leaves as it is (42_bus_fsm.md R200) -/

/-- No device, no chain, no ACK, no emitted bit and no queued sample changes. -/
def Undisturbed (s t : State) : Prop :=
  t.dev = s.dev ∧ t.chain = s.chain ∧ t.ack = s.ack ∧ t.txBits = s.txBits ∧ t.hostLine = s.hostLine
    ∧ t.samples = s.samples ∧ t.draws = s.draws

/-- The outcome is an idle bus on which nothing was disturbed. -/
def StaysIdle (s : State) (o : Out) : Prop := ∃ t, o = .next t ∧ IdleBus t ∧ Undisturbed s t

theorem undisturbed_refl (s : State) : Undisturbed s s := ⟨rfl, rfl, rfl, rfl, rfl, rfl, rfl⟩

theorem IdleBus.staysIdle {s : State} (h : IdleBus s) : StaysIdle s (.next s) := ⟨s, rfl, h, undisturbed_refl s⟩

/-- An idle bus with the rest of its schedule, quiet from the vector that is on the lines now. -/
theorem IdleBus.schedule {s : State} (h : IdleBus s) {p : Phase} {es : List Entry}
    (hp : classify s.params p = .idle) (hes : quietFrom s.params p es = true) (turn : Turn) :
    IdleBus { s with phase := p, script := es, turn := turn } := by
  obtain ⟨heng, -, happ, hdev, -, htr, hisr⟩ := h
  exact ⟨heng, hp, happ, hdev, hes, htr, hisr⟩

theorem IdleBus.takeTurn {s : State} (h : IdleBus s) (turn : Turn) : IdleBus { s with turn := turn } := by
  obtain ⟨-, hp, -, -, hes, -⟩ := id h
  exact h.schedule hp hes turn

/-! ### The agents' steps on an idle bus -/

section Steps

variable {s : State} (h : IdleBus s)
include h

theorem timerTick_staysIdle : StaysIdle s (exec .timerTick s) := by
  obtain ⟨heng, hph, happ, hdev, hes, htr, hisr⟩ := h
  exact ⟨_, rfl, ⟨heng, hph, happ, hdev, hes, htr, hisr⟩, undisturbed_refl s⟩

/-- The prefetch does not begin: the phase is not Enable. -/
theorem isrStart_staysIdle : StaysIdle s (exec .isrStart s) := by
  obtain ⟨heng, hph, happ, hdev, hes, htr, hisr⟩ := h
  have htake : takeInterrupt s = { s with irqPend := false } := by
    refine if_neg fun hbegin => ?_
    rw [show classify s.params s.phase = .idle from hph] at hbegin
    cases hbegin.1
  refine ⟨{ s with irqPend := false }, congrArg _ htake, ⟨heng, hph, happ, hdev, hes, htr, hisr⟩, undisturbed_refl s⟩

/-- E_IDLE stays, E_RESET goes to E_IDLE. -/
theorem pollDispatch_staysIdle : StaysIdle s (exec .pollDispatch s) := by
  obtain ⟨heng, hph, happ, hdev, hes, htr, hisr⟩ := id h
  have hpoll : exec .pollDispatch s = engStep s := execPollDispatch_eng htr (takeRequest_none happ hdev)
  rw [hpoll]
  obtain heng | heng := heng
  · simp only [engStep, heng, execEIdle, hph]
    exact h.staysIdle
  · simp only [engStep, heng, execEReset, hph]
    exact ⟨_, rfl, ⟨.inl rfl, hph, happ, hdev, hes, htr, hisr⟩, undisturbed_refl s⟩

theorem coreOp_staysIdle : StaysIdle s (exec (coreOp s) s) := by
  obtain ⟨-, -, -, -, -, -, hisr⟩ := id h
  unfold coreOp
  rw [if_neg (by simp [hisr])]
  split
  · exact isrStart_staysIdle h
  · exact pollDispatch_staysIdle h

end Steps

/-! ### What is fetched -/

/-- What a step makes of what is fetched. -/
def Fetched.outcome : Fetched → Out
  | .run i s => exec i s
  | .done o => o

theorem step_eq_outcome (s : State) : step s = (fetch s).outcome := by
  unfold step
  cases fetch s <;> rfl

theorem reference_staysIdle {s : State} (h : IdleBus s) : StaysIdle s (reference s).outcome := by
  unfold reference
  split
  · exact timerTick_staysIdle (h.takeTurn .core)
  · exact coreOp_staysIdle (h.takeTurn .timer)

theorem fetchCode_staysIdle {s : State} {f : Format} {bs : List Byte} {i : Instr} (h : IdleBus s)
    (hd : decode s.params f bs = .ok i) (hexec : StaysIdle s (exec i s)) :
    StaysIdle s (fetchCode f bs s).outcome := by
  simp only [fetchCode, hd]
  split
  · exact hexec
  · exact h.staysIdle

theorem ifIdle_some {P : Params} {p q : Phase} (h : ifIdle P p = some q) : p = q ∧ classify P q = .idle := by
  unfold ifIdle at h
  split at h
  · next hp => cases h; exact ⟨rfl, hp⟩
  · cases h

/-! ### The entries of a quiet schedule -/

theorem quietFrom_cons {P : Params} {p : Phase} {e : Entry} {rest : List Entry}
    (h : quietFrom P p (e :: rest) = true) : ∃ q, idleAfter P p e = some q ∧ quietFrom P q rest = true := by
  rw [quietFrom] at h
  split at h
  · next q hq => exact ⟨q, hq, h⟩
  · cases h

section Entries

variable {s : State} {rest : List Entry} (h : IdleBus s)
include h

/-- Rounds of the reference schedule, with the verb's entry kept in its place or not. -/
theorem round_staysIdle {e : Entry} (hkeep : idleAfter s.params s.phase e = some s.phase)
    (hrest : quietFrom s.params s.phase rest = true) :
    StaysIdle s (reference { s with script := e :: rest }).outcome := by
  obtain ⟨-, hph, -⟩ := id h
  refine reference_staysIdle (h.schedule hph ?_ s.turn)
  rw [quietFrom, hkeep]
  exact hrest

theorem skip_staysIdle (hrest : quietFrom s.params s.phase rest = true) :
    StaysIdle s (.next { s with script := rest }) := by
  obtain ⟨-, hph, -⟩ := id h
  exact (h.schedule hph hrest s.turn).staysIdle

/-- HOST drives an Idle vector. -/
theorem drive_staysIdle {q : Phase} (hq : classify s.params q = .idle) (hrest : quietFrom s.params q rest = true) :
    StaysIdle s (.next { s with phase := q, script := rest }) :=
  ⟨_, rfl, h.schedule hq hrest s.turn, undisturbed_refl s⟩

theorem phaseCode_staysIdle {q : Phase} (hq : classify s.params q = .idle)
    (hrest : quietFrom s.params q rest = true) {b : Byte} (hb : b &&& 0xF0#8 = 0#8) (hbq : b.setWidth 4 = q) :
    StaysIdle s (fetchCode .phase [b] { s with script := rest }).outcome := by
  have hd : decode s.params .phase [b] = .ok (.phaseIdle q) := by
    simp only [decode, oneByte_single, hb, if_true, hbq, decodePhase, hq]
  simp only [fetchCode, hd]
  exact drive_staysIdle h hq hrest

theorem req_staysIdle {q : Phase} {v : Bool} (hq : idleAfter s.params s.phase (.req v) = some q)
    (hrest : quietFrom s.params q rest = true) : StaysIdle s (.next (driveReq v { s with script := rest })) := by
  obtain ⟨hv, hidle⟩ := ifIdle_some hq
  by_cases hpin : s.params.reqIsPh0 = true
  · rw [if_pos hpin] at hv
    rw [driveReq_ph0 (s := { s with script := rest }) hpin]
    exact drive_staysIdle h (hv ▸ hidle) (hv ▸ hrest)
  · rw [if_neg hpin] at hv
    rw [driveReq_pin (s := { s with script := rest }) hpin]
    subst hv
    obtain ⟨heng, hph, happ, hdev, -, htr, hisr⟩ := h
    exact ⟨_, rfl, ⟨heng, hph, happ, hdev, hrest, htr, hisr⟩, undisturbed_refl s⟩

/-- One of the three agent steps by its code. -/
theorem agentCode_staysIdle {f : Format} {bs : List Byte}
    (hcode : (f, bs) ∈ [(Format.timerStep, [0x00#8]), (.pollStep, []), (.isrStep, [0x00#8])])
    (hrest : quietFrom s.params s.phase rest = true) :
    StaysIdle s (fetchCode f bs { s with script := rest }).outcome := by
  obtain ⟨-, hph, -⟩ := id h
  have hidle : IdleBus { s with script := rest } := h.schedule hph hrest s.turn
  simp only [List.mem_cons, Prod.mk.injEq, List.not_mem_nil, or_false] at hcode
  obtain ⟨rfl, rfl⟩ | ⟨rfl, rfl⟩ | ⟨rfl, rfl⟩ := hcode
  · exact fetchCode_staysIdle hidle rfl (timerTick_staysIdle hidle)
  · exact fetchCode_staysIdle hidle rfl (pollDispatch_staysIdle hidle)
  · exact fetchCode_staysIdle hidle rfl (isrStart_staysIdle hidle)

/-- A code that a quiet schedule may hold: an Idle phase vector, or one of the three agent steps. -/
theorem code_staysIdle {q : Phase} {f : Format} {bs : List Byte}
    (hq : idleAfter s.params s.phase (.code f bs) = some q) (hrest : quietFrom s.params q rest = true) :
    StaysIdle s (fetchCode f bs { s with script := rest }).outcome := by
  unfold idleAfter at hq
  split at hq
  · next hcode =>
    cases hcode
    split at hq
    · next hb =>
      obtain ⟨hbq, hidle⟩ := ifIdle_some hq
      exact phaseCode_staysIdle h hidle hrest hb hbq
    · cases hq
  · next hcode =>
    cases hcode
    split at hq
    · next hmem =>
      cases hq
      exact agentCode_staysIdle h hmem hrest
    · cases hq
  all_goals next hcode => cases hcode

theorem fetchEntry_staysIdle {q : Phase} {e : Entry} (hq : idleAfter s.params s.phase e = some q)
    (hrest : quietFrom s.params q rest = true) : StaysIdle s (fetchEntry e { s with script := rest }).outcome := by
  obtain ⟨-, hph, -⟩ := id h
  cases e with
  | code f bs => exact code_staysIdle h hq hrest
  | req v => exact req_staysIdle h hq hrest
  | run k =>
    cases hq
    simp only [fetchEntry]
    split
    · exact skip_staysIdle h hrest
    · exact round_staysIdle h rfl hrest
  | runUntil c b =>
    cases hq
    simp only [fetchEntry]
    split_ifs
    · exact skip_staysIdle h hrest
    · exact ⟨_, rfl, h.schedule hph hrest s.turn, undisturbed_refl s⟩
    · exact round_staysIdle h rfl hrest
  | await who =>
    cases hq
    simp only [fetchEntry]
    split
    · exact skip_staysIdle h hrest
    · exact round_staysIdle h rfl hrest
  | line | samples | readTx | offer | csrRead | csrWrite | powerOn | expectTx => cases hq

end Entries

/-- Settles O57, by what is fetched: the reference schedule's step, or an entry of the quiet schedule. -/
theorem idleBusStaysIdle : Obligations.IdleBusStaysIdle := by
  intro s h
  suffices hfetch : StaysIdle s (fetch s).outcome by
    rw [← step_eq_outcome] at hfetch
    exact hfetch
  obtain ⟨-, -, -, -, hquiet, -⟩ := id h
  unfold fetch
  split
  · exact reference_staysIdle h
  · next e rest hscript =>
    rw [hscript] at hquiet
    obtain ⟨q, hq, hrest⟩ := quietFrom_cons hquiet
    exact fetchEntry_staysIdle h hq hrest

end Sys2Proof.Machine
end

section
/-! PROOFS. INIT addressing: one INIT cycle on the machine (O60), and a sweep of them over the chain (O59). -/

namespace Sys2Proof.Machine

/-! ### One cycle (42_bus_fsm.md R205, R213) -/

theorem initCycle_of_target {s : State} {i : Nat} (h : initTarget s = some i) (dest : Byte) :
    initCycle dest s = some (initStatus i s, setDev i { devAt s i with addr := dest } s) := by
  rw [initCycle, h]
  rfl

theorem initStatus_mem (i : Nat) (s : State) : initStatus i s ∈ [0x00#8, 0xFF#8] := by
  unfold initStatus
  split <;> simp

/-- A body that decodes has a valid structure, and its data is what step 3 reconstructs (40_codec.md R121 to R125). -/
theorem structureOf_of_good {P : Params} {c : Byte} {v : Bool} {b : List Byte} {rec : DecRec} {rx : Byte}
    (h : decodeBody P c v b = .good rec rx) :
    ∃ odd groups, structureOf P b = .ok (odd, groups) ∧ rec.data = reconstruct b odd groups := by
  unfold decodeBody at h
  split at h
  · cases h
  · next odd groups hok =>
    simp only at h
    split_ifs at h
    cases h
    exact ⟨odd, groups, hok, rfl⟩

/-- The opcode the claim peeks is the one the decode finds (R134). -/
theorem peekOpcode_of_good {P : Params} {c : Byte} {v : Bool} {b : List Byte} {rec : DecRec} {rx : Byte}
    (h : decodeBody P c v b = .good rec rx) : peekOpcode b = rec.opcode := by
  obtain ⟨odd, groups, hok, hdata⟩ := structureOf_of_good h
  rw [DecRec.opcode, hdata]
  exact (peekAgreesWithDecode P b odd groups hok).1

/-- The decode of an INIT, when its reply fits TXBUF: what it leaves in the table, the status, and the reply's SEND. -/
theorem execEDecode_init {s : State} {b : List Byte} {rec : DecRec} {rx : Byte}
    (hb : memRead s.params s.mb 0 s.mbLen = .ok b)
    (hd : decodeBody s.params s.lastChk s.lastChkV b = .good rec rx) (hkind : s.curKind = .init)
    (hbuf : 17 ≤ s.params.bufLen) :
    ∃ t, execEDecode s = .next t ∧ t.dev = s.dev.set s.curSlot { devAt s s.curSlot with addr := rec.dest }
      ∧ t.curStatus = initStatus s.curSlot s ∧ t.eng = .initReply ∧ t.trState = .sWaitRise ∧ t.ack = false := by
  have hstep := (execEDecode_good hb hd).trans (if_pos hkind)
  exact ⟨_, hstep.trans (assignInit_of_fits (s := { s with lastChk := rx, lastChkV := true }) hbuf rec),
    rfl, rfl, rfl, rfl, rfl⟩

/-- Settles O60. The claim, the end of the wait and the decode each go their one way, and what the assignment writes to
the table is what the abstract cycle writes. -/
theorem initCycleOnTheMachine : Obligations.InitCycleOnTheMachine := by
  intro s b rec rx t p q hlock hlen hb hd hop htarget hbuf hreq
  have hpeek : peekOpcode b = some 0x85#8 := (peekOpcode_of_good hd).trans hop
  have hclaim : exec .claim s = .next (claimAs .init (some t) s) := by
    rw [← htarget]
    exact (claimStaged_of_locked hlock hlen hb).trans (congrArg _ (if_pos hpeek))
  have hwait : exec .eClaimWait { claimAs .init (some t) s with phase := p, reqPin := q }
      = .next { claimAs .init (some t) s with phase := p, reqPin := q, eng := .decode } :=
    (claimWaitsForReqToFall _).trans (congrArg _ (if_pos hreq))
  obtain ⟨s3, hdecode, hdev, hstatus, heng, htr, hack⟩ :=
    execEDecode_init (s := { claimAs .init (some t) s with phase := p, reqPin := q, eng := .decode }) hb hd rfl hbuf
  have hmem : s3.curStatus ∈ [0x00#8, 0xFF#8] := hstatus ▸ initStatus_mem _ _
  refine ⟨_, _, s3, hclaim, rfl, rfl, hwait, hdecode, ?_, heng, htr, hack, hmem⟩
  rw [hdev, hstatus]
  exact initCycle_of_target htarget rec.dest

/-! ### The devices that wait for an address -/

/-- The active unaddressed devices in chain order. -/
def unaddressed (s : State) : List Nat := s.chain.filter fun i => (devAt s i).active && (devAt s i).addr == 0

theorem initTarget_eq_head (s : State) : initTarget s = (unaddressed s).head? := by
  rw [unaddressed, List.head?_filter]
  rfl

theorem otherUnaddressed_eq_any (i : Nat) (s : State) :
    otherUnaddressed i s = (unaddressed s).any fun j => j != i := by
  rw [unaddressed, List.any_filter]
  refine congrArg (List.any s.chain) (funext fun j => ?_)
  cases j != i <;> simp

section Cycle

variable {s : State} {i : Nat} {rest : List Nat} (hnodup : s.chain.Nodup) (h : unaddressed s = i :: rest)
include hnodup h

theorem not_mem_rest : i ∉ rest := by
  have hfilter : (unaddressed s).Nodup := hnodup.filter _
  rw [h] at hfilter
  exact (List.nodup_cons.1 hfilter).1

/-- The status says whether the target was the last one waiting. -/
theorem initStatus_of_cons : initStatus i s = if rest = [] then 0xFF#8 else 0x00#8 := by
  have hi := not_mem_rest hnodup h
  rw [initStatus, otherUnaddressed_eq_any, h]
  cases rest with
  | nil => simp
  | cons j rest =>
    have hne : j ≠ i := fun hji => hi (by simp [hji])
    simp [hne]

/-- A target that takes its address waits no longer, and the others go on waiting. -/
theorem unaddressed_setDev (hlt : i < s.dev.length) {d : Byte} (hd : d ≠ 0#8) :
    unaddressed (setDev i { devAt s i with addr := d } s) = rest := by
  have hi := not_mem_rest hnodup h
  have hfilter : unaddressed (setDev i { devAt s i with addr := d } s) = (unaddressed s).filter fun j => j != i := by
    simp only [unaddressed, List.filter_filter, setDev_chain]
    refine List.filter_congr fun j _ => ?_
    by_cases hj : j = i
    · simp [hj, devAt_setDev_same hlt, hd]
    · simp [hj, devAt_setDev_other hj]
  rw [hfilter, h, List.filter_cons_of_neg (by simp)]
  exact List.filter_eq_self.2 fun j hj => by
    have hne : j ≠ i := fun hji => hi (hji ▸ hj)
    simp [hne]

end Cycle

/-! ### The sweep (42_bus_fsm.md R222) -/

/-- The statuses of a sweep over `n` waiting devices: 0x00 while another one waits, 0xFF for the last. -/
def sweepStatuses : Nat → List Byte
  | 0 => []
  | n + 1 => List.replicate n 0x00#8 ++ [0xFF#8]

theorem sweepStatuses_succ (n : Nat) :
    sweepStatuses (n + 1) = (if n = 0 then 0xFF#8 else 0x00#8) :: sweepStatuses n := by
  cases n <;> rfl

/-- What a sweep over the waiting devices `is` with the addresses `ds` leaves: each has its address and nothing else is
changed. -/
structure Swept (is : List Nat) (ds : List Byte) (s t : State) : Prop where
  chain : t.chain = s.chain
  addressed : ∀ (k i : Nat), is[k]? = some i → ∃ d, ds[k]? = some d ∧ devAt t i = { devAt s i with addr := d }
  others : ∀ i, i ∉ is → devAt t i = devAt s i
  none_left : unaddressed t = []

/-- One more cycle before a sweep. -/
theorem Swept.cons {s t : State} {i : Nat} {is : List Nat} {d : Byte} {ds : List Byte} (hi : i ∉ is)
    (hlt : i < s.dev.length) (h : Swept is ds (setDev i { devAt s i with addr := d } s) t) :
    Swept (i :: is) (d :: ds) s t where
  chain := h.chain
  addressed := by
    intro k j hk
    cases k with
    | zero =>
      cases hk
      exact ⟨d, rfl, (h.others i hi).trans (devAt_setDev_same hlt _)⟩
    | succ k =>
      have hj : j ≠ i := fun hji => hi (hji ▸ List.mem_of_getElem? hk)
      obtain ⟨e, he, hdev⟩ := h.addressed k j hk
      exact ⟨e, he, by rw [hdev, devAt_setDev_other hj]⟩
  others := by
    intro j hj
    rw [List.mem_cons, not_or] at hj
    rw [h.others j hj.2, devAt_setDev_other hj.1]
  none_left := h.none_left

/-- A sweep with as many non-zero addresses as devices wait goes through, by induction on the addresses. -/
theorem initSweep_swept {ds : List Byte} : ∀ {s : State}, s.chain.Nodup → (∀ i ∈ s.chain, i < s.dev.length) →
    ds.length = (unaddressed s).length → 0#8 ∉ ds →
    ∃ t, initSweep ds s = some (sweepStatuses ds.length, t) ∧ Swept (unaddressed s) ds s t := by
  induction ds with
  | nil =>
    intro s _ _ hlen _
    have hnone : unaddressed s = [] := List.length_eq_zero_iff.1 hlen.symm
    exact ⟨s, rfl, rfl, by simp [hnone], fun _ _ => rfl, hnone⟩
  | cons d ds ih =>
    intro s hnodup hlt hlen hzero
    cases hun : unaddressed s with
    | nil => simp [hun] at hlen
    | cons i rest =>
      rw [List.mem_cons, not_or] at hzero
      obtain ⟨hd, hzero⟩ := hzero
      have hmem : i ∈ s.chain := List.mem_of_mem_filter (show i ∈ unaddressed s by simp [hun])
      have hi := not_mem_rest hnodup hun
      have hrest := unaddressed_setDev hnodup hun (hlt i hmem) (Ne.symm hd)
      have hcount : ds.length = rest.length := by simpa [hun] using hlen
      obtain ⟨t, hsweep, hswept⟩ := ih (s := setDev i { devAt s i with addr := d } s) hnodup
        (by simpa using hlt) (by rw [hrest, hcount]) hzero
      rw [hrest] at hswept
      refine ⟨t, ?_, hswept.cons hi (hlt i hmem)⟩
      have htarget : initTarget s = some i := by rw [initTarget_eq_head, hun]; rfl
      have hnil : rest = [] ↔ ds.length = 0 := by rw [hcount, List.length_eq_zero_iff]
      simp only [initSweep, initCycle_of_target htarget, hsweep, Option.map_some, List.length_cons,
        sweepStatuses_succ, initStatus_of_cons hnodup hun, hnil]

/-- Settles O59: all the active devices wait at first, so the sweep addresses each of them, and two with one address
have one place in the list of addresses. -/
theorem initSweepAddressesTheChain : Obligations.InitSweepAddressesTheChain := by
  intro s ds hchain hzero hpos hlen hnodup hnonzero
  obtain ⟨hdevs, hchainNodup, hlisted, -⟩ := hchain
  have hun : unaddressed s = s.chain.filter fun i => (devAt s i).active :=
    List.filter_congr fun i hi => by simp [hzero i hi]
  rw [← hun] at hpos hlen
  simp only [← hun]
  obtain ⟨t, hsweep, hswept⟩ := initSweep_swept hchainNodup (fun i hi => hdevs ▸ (hlisted i hi).1) hlen hnonzero
  have hstatuses : sweepStatuses ds.length = List.replicate (ds.length - 1) 0x00#8 ++ [0xFF#8] := by
    obtain ⟨n, hn⟩ := Nat.exists_eq_succ_of_ne_zero (n := ds.length) (by omega)
    rw [hn]
    rfl
  have haddr : ∀ k i : Nat, (unaddressed s)[k]? = some i → ds[k]? = some (devAt t i).addr := by
    intro k i hk
    obtain ⟨d, hd, hdev⟩ := hswept.addressed k i hk
    rw [hd, hdev]
  have hactive : ∀ i ∈ s.chain, (devAt t i).active = true → i ∈ unaddressed s := by
    intro i hi hact
    by_contra hnot
    rw [hswept.others i hnot] at hact
    exact hnot (hun ▸ List.mem_filter.2 ⟨hi, hact⟩)
  refine ⟨t, hstatuses ▸ hsweep, haddr, hswept.others, fun i hi j hj hacti hactj heq => ?_, ?_⟩
  · obtain ⟨k, hk⟩ := List.getElem?_of_mem (hactive i hi hacti)
    obtain ⟨l, hl⟩ := List.getElem?_of_mem (hactive j hj hactj)
    have hdk := haddr k i hk
    have hdl := haddr l j hl
    obtain ⟨hklt, -⟩ := List.getElem?_eq_some_iff.1 hdk
    have hkl : k = l := (List.getElem?_inj hklt hnodup).1 (by rw [hdk, hdl, heq])
    rw [hkl, hl] at hk
    exact (Option.some.inj hk).symm
  · rw [initTarget_eq_head, hswept.none_left]
    rfl

end Sys2Proof.Machine
end

section
/-! PROOFS. The registry's port requests (O1 to O5): which of them are admitted, and what an admitted one answers. -/

namespace Sys2Proof.Machine

/-! ### Admission (43_registry.md R240 to R243, R245) -/

theorem noCommand_iff (e : Eng) : noCommand e = true ↔ e = .idle ∨ e = .reset ∨ e = .enable := by
  cases e <;> simp [noCommand]

theorem admitsRegistry_app (s : State) :
    admitsRegistry .app s = true ↔ s.trState = .idle ∧ (s.eng = .idle ∨ s.eng = .reset ∨ s.eng = .enable) := by
  simp [admitsRegistry, noCommand_iff]

/-- APP is admitted as for the registry's changes, DEVLAYER while it serves a command. -/
theorem admitsActivation_iff (who : Issuer) (s : State) :
    admitsActivation who s = true ↔ s.trState = .idle
      ∧ ((who = .app ∧ (s.eng = .idle ∨ s.eng = .reset ∨ s.eng = .enable)) ∨ (who = .devlayer ∧ s.eng = .device)) := by
  cases who with
  | app => simp [admitsActivation, admitsRegistry_app]
  | devlayer => simp [admitsActivation, and_comm]

/-! ### ADD_DEVICE and REMOVE_DEVICE (43_registry.md R240, R241) -/

/-- ADD_DEVICE by its admission, and then by whether the slot is taken. -/
theorem execAddDevice_eq (who : Issuer) (slot dtype : Byte) (s : State) :
    execAddDevice who slot dtype s =
      if admitsRegistry who s = true ∧ slot.toNat < s.params.maxDevices then
        if (devAt s slot.toNat).present = true then .next (failRequest who .slotBusy s)
        else .next (deliver who (Reply.code 0)
          { setDev slot.toNat { present := true, active := false, addr := 0, dtype := dtype } s with
            chain := slot.toNat :: s.chain })
      else .next (refuse who s) := by
  rw [execAddDevice, ← ite_not]
  exact if_congr (by simp) rfl rfl

/-- REMOVE_DEVICE by the same admission as ADD_DEVICE, and then by whether the slot holds a device. -/
theorem execRemoveDevice_eq (who : Issuer) (slot : Byte) (s : State) :
    execRemoveDevice who slot s =
      if admitsRegistry who s = true ∧ slot.toNat < s.params.maxDevices then
        if (devAt s slot.toNat).present = true then
          .next (deliver who (Reply.code 0)
            { setDev slot.toNat Device.empty s with chain := s.chain.filter (fun i => i != slot.toNat) })
        else .next (failRequest who .slotEmpty s)
      else .next (refuse who s) := by
  rw [execRemoveDevice, ← ite_not]
  refine if_congr (by simp) ?_ rfl
  rw [← ite_not]
  exact if_congr (by simp) rfl rfl

/-- Settles O1, by whether the request is admitted and then by whether the slot is taken. -/
theorem addDeviceRegistersSlot : Obligations.AddDeviceRegistersSlot := by
  intro slot dtype s
  have hexec : exec (.addDevice .app slot dtype) s = execAddDevice .app slot dtype s := rfl
  refine ⟨?_, refuses_refuse .devlayer s⟩
  simp only [hexec, execAddDevice_eq, admitsRegistry_app, and_assoc]
  split_ifs with hadmit hpresent
  · exact ⟨_, rfl, rfl⟩
  · exact ⟨_, rfl, rfl⟩
  · exact refuses_refuse .app s

/-- Settles O2, by whether the request is admitted and then by whether the slot holds a device. -/
theorem removeDeviceUnlinksSlot : Obligations.RemoveDeviceUnlinksSlot := by
  intro slot s
  have hexec : exec (.removeDevice .app slot) s = execRemoveDevice .app slot s := rfl
  refine ⟨?_, refuses_refuse .devlayer s⟩
  simp only [hexec, execRemoveDevice_eq, admitsRegistry_app, and_assoc]
  split_ifs with hadmit hpresent
  · exact ⟨_, rfl, rfl⟩
  · exact ⟨_, rfl, rfl⟩
  · exact refuses_refuse .app s

/-! ### SET_ACTIVE and SET_ACTIVE_SLOT (43_registry.md R242, R243) -/

/-- The lookup as R242 and R244 word it: no device holds the address 0x00. -/
theorem slotByAddr_eq (addr : Byte) (s : State) :
    slotByAddr addr s = if addr = 0#8 then none else s.chain.find? (fun i => (devAt s i).addr == addr) := rfl

/-- SET_ACTIVE by its admission; an admitted one goes by what the lookup finds. -/
theorem execSetActive_eq (who : Issuer) (addr v : Byte) (s : State) :
    execSetActive who addr v s =
      if v.toNat ≤ 1 ∧ admitsActivation who s = true then
        match slotByAddr addr s with
        | none => .next (failRequest who .noDevice s)
        | some i => .next (deliver who (Reply.code 0) (setDev i { devAt s i with active := v == 1 } s))
      else .next (refuse who s) := by
  rw [execSetActive, ← ite_not]
  exact if_congr (by simp [and_comm]) rfl rfl

/-- SET_ACTIVE_SLOT by its admission, and then by whether the slot holds a device. -/
theorem execSetActiveSlot_eq (who : Issuer) (slot v : Byte) (s : State) :
    execSetActiveSlot who slot v s =
      if v.toNat ≤ 1 ∧ slot.toNat < s.params.maxDevices ∧ admitsActivation who s = true then
        if (devAt s slot.toNat).present = true then
          .next (deliver who (Reply.code 0) (setDev slot.toNat { devAt s slot.toNat with active := v == 1 } s))
        else .next (failRequest who .slotEmpty s)
      else .next (refuse who s) := by
  rw [execSetActiveSlot, ← ite_not]
  refine if_congr ?_ ?_ rfl
  · simp [and_comm]
  · rw [← ite_not]
    exact if_congr (by simp) rfl rfl

/-- Settles O3, by whether the request is admitted and then by what the lookup finds. -/
theorem setActiveByAddress : Obligations.SetActiveByAddress := by
  intro who addr v s
  have hexec : exec (.setActive who addr v) s = execSetActive who addr v s := rfl
  simp only [hexec, execSetActive_eq, admitsActivation_iff, and_left_comm (b := s.trState = .idle), ← slotByAddr_eq]
  split_ifs with hadmit
  · cases slotByAddr addr s with
    | none => exact ⟨_, rfl, rfl⟩
    | some i => exact ⟨_, rfl, rfl⟩
  · exact refuses_refuse who s

/-- Settles O4, by whether the request is admitted and then by whether the slot holds a device. -/
theorem setActiveBySlot : Obligations.SetActiveBySlot := by
  intro who slot v s
  have hexec : exec (.setActiveSlot who slot v) s = execSetActiveSlot who slot v s := rfl
  simp only [hexec, execSetActiveSlot_eq, admitsActivation_iff, and_left_comm (b := s.trState = .idle)]
  split_ifs with hadmit hpresent
  · exact ⟨_, rfl, rfl⟩
  · exact ⟨_, rfl, rfl⟩
  · exact refuses_refuse who s

/-! ### DEVICE_BY_ADDR (43_registry.md R244) -/

/-- Settles O5, by whether the transport is idle; the request is served by the same lookup as SET_ACTIVE. -/
theorem deviceByAddrLooksUp : Obligations.DeviceByAddrLooksUp := by
  intro who addr s
  have hexec : exec (.deviceByAddr who addr) s = execDeviceByAddr who addr s := rfl
  rw [hexec, execDeviceByAddr, ← slotByAddr_eq]
  by_cases hidle : s.trState = .idle
  · rw [if_pos hidle, if_neg (by simp [hidle])]
    exact ⟨_, ⟨rfl, rfl⟩, rfl⟩
  · rw [if_neg hidle, if_pos (by simp [hidle])]
    exact refuses_refuse who s

end Sys2Proof.Machine
end

section
/-! PROOFS. Errors and faults: `raise` (O41), what a step does to the error record, said once per operation and once for
the schedule's own actions (O53), and that every operation completes on valid buffers, so that no step ends in a buffer
fault (O50). -/

namespace Sys2Proof.Machine

/-! ### raise (60_exceptions.md R260, R264) -/

/-- Settles O41: the update is the model's, the codes are read off constructor by constructor, and each number stands in
the table of the third conjunct. -/
theorem raiseRecordsTheCode : Obligations.RaiseRecordsTheCode := by
  refine ⟨fun e s => rfl, fun e => by cases e <;> decide, rfl, fun k hlow hhigh hbadop => ?_⟩
  have hlisted : k ∈ [1, 2, 3, 4, 5, 6, 7, 8, 9, 11, 12, 13] := by
    simp only [List.mem_cons, List.not_mem_nil, or_false]
    omega
  obtain ⟨e, -, he⟩ := List.mem_map.1
    (show k ∈ ([.timeoutReqRise, .timeoutReqFall, .checksum, .framing, .trunc, .oddcnt, .length, .nosync, .param,
      .slotBusy, .slotEmpty, .noDevice] : List Err).map Err.num from hlisted)
  exact ⟨e, he⟩

/-! ### The error record (60_exceptions.md R260, R264) -/

/-- The error record is as it was. -/
def SameErrors (s t : State) : Prop := t.lastErr = s.lastErr ∧ t.errFlags = s.errFlags

theorem SameErrors.trans {s t u : State} (h : SameErrors s t) (h' : SameErrors t u) : SameErrors s u := by
  obtain ⟨hlast, hflags⟩ := h
  obtain ⟨hlast', hflags'⟩ := h'
  exact ⟨hlast'.trans hlast, hflags'.trans hflags⟩

theorem AtMostOneError.of_same {s t : State} (h : SameErrors s t) : AtMostOneError s t := .inl h

/-- One code was recorded, and what else was written is no part of the record. -/
theorem AtMostOneError.of_raise {e : Err} {s t : State} (h : SameErrors (raise e s) t) : AtMostOneError s t :=
  .inr ⟨e, h⟩

/-- Seen from before a change outside the record. -/
theorem AtMostOneError.after {s s' t : State} (hs : SameErrors s s') (h : AtMostOneError s' t) :
    AtMostOneError s t := by
  obtain ⟨hlast, hflags⟩ := hs
  unfold AtMostOneError at h ⊢
  rwa [← hlast, ← hflags]

theorem Leads.atMostOneError {s : State} {o : Out} (h : Leads (SameErrors s) o) : Leads (AtMostOneError s) o :=
  h.mono fun _ => .of_same

theorem errCode_legal (e : Err) : e.code.toNat ≤ 13 ∧ e.code ≠ badopCode := by
  cases e <;> decide

/-- The bits of ERR_FLAGS that no code has (R260). -/
theorem errBit_legal (e : Err) : (1#16 <<< e.num) &&& 0xC401#16 = 0 := by
  cases e <;> rfl

theorem AtMostOneError.errorsOk {s t : State} (h : AtMostOneError s t) (hs : ErrorsOk s) : ErrorsOk t := by
  obtain ⟨hmax, hbadop, hflags⟩ := hs
  obtain ⟨hlast', hflags'⟩ | ⟨e, hlast', hflags'⟩ := h
  · rw [ErrorsOk, hlast', hflags']
    exact ⟨hmax, hbadop, hflags⟩
  · obtain ⟨hcode, hcode'⟩ := errCode_legal e
    rw [ErrorsOk, hlast', hflags', BitVec.and_or_distrib_right, hflags, errBit_legal]
    exact ⟨hcode, hcode', rfl⟩

/-! ### What the shared operations do to the error record -/

theorem sameErrors_deliver (who : Issuer) (r : Reply) (s : State) : SameErrors s (deliver who r s) := by
  cases who <;> exact ⟨rfl, rfl⟩

theorem sameErrors_refuse (who : Issuer) (s : State) : SameErrors s (refuse who s) := by
  cases who <;> exact ⟨rfl, rfl⟩

theorem failRequest_recordsOne (who : Issuer) (e : Err) (s : State) : AtMostOneError s (failRequest who e s) :=
  .of_raise (sameErrors_deliver who _ _)

theorem sameErrors_endTransfer (res : TrResult) (rep : Reply) (s : State) :
    SameErrors s (endTransfer res rep s) := by
  simp [SameErrors]

theorem timeoutTransfer_recordsOne (res : TrResult) (e : Err) (s : State) :
    AtMostOneError s (timeoutTransfer res e s) :=
  .of_raise (sameErrors_endTransfer res _ _)

theorem sameErrors_capture (n : Nat) (s : State) : SameErrors s (capture n s).2 := by
  rw [capture_state]
  exact ⟨rfl, rfl⟩

theorem sameErrors_of_runDecode {b : List Byte} {s t : State} {d : DecodeResult} (h : runDecode b s = (d, t)) :
    SameErrors s t := by
  have hs : SameErrors s (runDecode b s).2 := by
    rw [runDecode_state]
    exact ⟨rfl, rfl⟩
  rwa [h] at hs

theorem sameErrors_startSend {raw : List Byte} {s t : State} (h : startSend raw s = .ok t) : SameErrors s t := by
  obtain ⟨-, rfl⟩ := startSend_ok h
  exact ⟨rfl, rfl⟩

theorem sameErrors_takeRequest {s t : State} {who : Issuer} {r : Request} (h : takeRequest s = some (who, r, t)) :
    SameErrors s t := by
  obtain ⟨-, -, ht⟩ | ⟨-, -, ht⟩ := takeRequest_some h <;> rw [ht] <;> exact ⟨rfl, rfl⟩

theorem sameErrors_claimAs (kind : CurKind) (target : Option Nat) (s : State) :
    SameErrors s (claimAs kind target s) := by
  cases target <;> exact ⟨rfl, rfl⟩

theorem dropCommand_recordsOne (e : Err) (s : State) : AtMostOneError s (dropCommand e s) :=
  .of_raise (e := e) ⟨rfl, rfl⟩

/-! ### The operation port (43_registry.md R240 to R244, 40_codec.md R117, R132, 41_transport.md R171, R172) -/

theorem execAddDevice_recordsOne (who : Issuer) (slot dtype : Byte) (s : State) :
    Leads (AtMostOneError s) (execAddDevice who slot dtype s) := by
  unfold execAddDevice
  split_ifs
  · exact leads_next.2 (.of_same (sameErrors_refuse who s))
  · exact leads_next.2 (failRequest_recordsOne who _ s)
  · exact leads_next.2 (.of_same (sameErrors_deliver who _ _))

theorem execRemoveDevice_recordsOne (who : Issuer) (slot : Byte) (s : State) :
    Leads (AtMostOneError s) (execRemoveDevice who slot s) := by
  unfold execRemoveDevice
  split_ifs
  · exact leads_next.2 (.of_same (sameErrors_refuse who s))
  · exact leads_next.2 (failRequest_recordsOne who _ s)
  · exact leads_next.2 (.of_same (sameErrors_deliver who _ _))

theorem execSetActive_recordsOne (who : Issuer) (addr v : Byte) (s : State) :
    Leads (AtMostOneError s) (execSetActive who addr v s) := by
  unfold execSetActive
  split
  · exact leads_next.2 (.of_same (sameErrors_refuse who s))
  · split
    · exact leads_next.2 (failRequest_recordsOne who _ s)
    · exact leads_next.2 (.of_same (sameErrors_deliver who _ _))

theorem execSetActiveSlot_recordsOne (who : Issuer) (slot v : Byte) (s : State) :
    Leads (AtMostOneError s) (execSetActiveSlot who slot v s) := by
  unfold execSetActiveSlot
  split_ifs
  · exact leads_next.2 (.of_same (sameErrors_refuse who s))
  · exact leads_next.2 (failRequest_recordsOne who _ s)
  · exact leads_next.2 (.of_same (sameErrors_deliver who _ _))

theorem execDeviceByAddr_sameErrors (who : Issuer) (addr : Byte) (s : State) :
    Leads (SameErrors s) (execDeviceByAddr who addr s) := by
  unfold execDeviceByAddr
  split
  · exact leads_next.2 (sameErrors_refuse who s)
  · exact leads_next.2 (sameErrors_deliver who _ s)

theorem execEncodePacket_recordsOne (who : Issuer) (src ptype status : Byte) (n : BitVec 16) (data : List Byte)
    (s : State) : Leads (AtMostOneError s) (execEncodePacket who src ptype status n data s) := by
  unfold execEncodePacket
  split_ifs
  · exact leads_next.2 (.of_same (sameErrors_refuse who s))
  · exact leads_next.2 (.of_raise (sameErrors_deliver who _ (raise .param s)))
  · exact leads_next.2 (.of_same (sameErrors_deliver who _ s))

theorem execDecodePacket_recordsOne (who : Issuer) (n : BitVec 16) (data : List Byte) (s : State) :
    Leads (AtMostOneError s) (execDecodePacket who n data s) := by
  unfold execDecodePacket
  split
  · exact leads_next.2 (.of_same (sameErrors_refuse who s))
  · split
    · next hrun =>
      exact leads_next.2 (.of_same ((sameErrors_of_runDecode hrun).trans (sameErrors_deliver who _ _)))
    · next e _ s' hrun =>
      exact leads_next.2 (.after (sameErrors_of_runDecode hrun) (.of_raise (sameErrors_deliver who _ (raise e s'))))

theorem execSendReply_recordsOne (who : Issuer) (ptype status : Byte) (n : BitVec 16) (data : List Byte)
    (s : State) : Leads (AtMostOneError s) (execSendReply who ptype status n data s) := by
  unfold execSendReply
  split_ifs
  · exact leads_next.2 (.of_same (sameErrors_refuse who s))
  · exact leads_next.2 (.of_raise (sameErrors_deliver who _ (raise .param s)))
  · refine leads_orFault fun t ht => leads_next.2 (.of_same ?_)
    exact (sameErrors_startSend ht).trans ⟨rfl, rfl⟩

theorem execRecvData_sameErrors (who : Issuer) (n : BitVec 16) (s : State) :
    Leads (SameErrors s) (execRecvData who n s) := by
  unfold execRecvData
  split
  · exact leads_next.2 (sameErrors_refuse who s)
  · exact leads_next.2 ⟨rfl, rfl⟩

theorem execDevDone_sameErrors (who : Issuer) (s : State) : Leads (SameErrors s) (execDevDone who s) := by
  unfold execDevDone
  split
  · exact leads_next.2 (sameErrors_refuse who s)
  · exact leads_next.2 (sameErrors_deliver who _ _)

theorem servePort_recordsOne (who : Issuer) (r : Request) (s : State) :
    Leads (AtMostOneError s) (servePort who r s) := by
  unfold servePort
  cases portKind r.op with
  | addDevice => exact execAddDevice_recordsOne who _ _ s
  | removeDevice => exact execRemoveDevice_recordsOne who _ s
  | setActive => exact execSetActive_recordsOne who _ _ s
  | setActiveSlot => exact execSetActiveSlot_recordsOne who _ _ s
  | deviceByAddr => exact (execDeviceByAddr_sameErrors who _ s).atMostOneError
  | encodePacket => exact execEncodePacket_recordsOne who _ _ _ _ _ s
  | decodePacket => exact execDecodePacket_recordsOne who _ _ s
  | sendReply => exact execSendReply_recordsOne who _ _ _ _ s
  | recvData => exact (execRecvData_sameErrors who _ s).atMostOneError
  | devDone => exact (execDevDone_sameErrors who s).atMostOneError
  | reserved => exact leads_next.2 (.of_same (sameErrors_refuse who s))

/-! ### The transport's waits (41_transport.md R156 to R164) -/

theorem execSWaitRise_recordsOne (s : State) : Leads (AtMostOneError s) (execSWaitRise s) := by
  unfold execSWaitRise
  split
  · exact leads_next.2 (.of_same ⟨rfl, rfl⟩)
  · exact leads_next.2 (timeoutTransfer_recordsOne _ _ s)
  · exact leads_orFault fun raw _ => leads_next.2 (.of_same ⟨rfl, rfl⟩)

theorem execSWaitFall_recordsOne (s : State) : Leads (AtMostOneError s) (execSWaitFall s) := by
  unfold execSWaitFall
  split
  · exact leads_next.2 (.of_same ⟨rfl, rfl⟩)
  · exact leads_next.2 (timeoutTransfer_recordsOne _ _ s)
  · exact leads_next.2 (.of_same (sameErrors_endTransfer _ _ s))

theorem execRWaitRise_recordsOne (s : State) : Leads (AtMostOneError s) (execRWaitRise s) := by
  unfold execRWaitRise
  split
  · exact leads_next.2 (.of_same ⟨rfl, rfl⟩)
  · exact leads_next.2 (timeoutTransfer_recordsOne _ _ s)
  · exact leads_orFault fun m _ => leads_next.2 (.of_same (sameErrors_capture _ s))

/-- A received body that does not decode records the decode's error, and one without a start byte NOSYNC. -/
theorem execRWaitFall_recordsOne (s : State) : Leads (AtMostOneError s) (execRWaitFall s) := by
  unfold execRWaitFall
  split
  · exact leads_next.2 (.of_same ⟨rfl, rfl⟩)
  · exact leads_next.2 (timeoutTransfer_recordsOne _ _ s)
  · split
    · exact leads_next.2 (.of_raise (sameErrors_endTransfer _ _ (raise .nosync s)))
    · refine leads_orFault fun b _ => ?_
      split
      · next hrun =>
        exact leads_next.2 (.of_same ((sameErrors_of_runDecode hrun).trans (sameErrors_endTransfer _ _ _)))
      · next e _ s' hrun =>
        exact leads_next.2
          (.after (sameErrors_of_runDecode hrun) (.of_raise (sameErrors_endTransfer _ _ (raise e s'))))

/-! ### The prefetch raises nothing (42_bus_fsm.md R224 to R226) -/

theorem execIsrStart_sameErrors (s : State) : Leads (SameErrors s) (execIsrStart s) := by
  refine leads_next.2 ?_
  obtain h | h := takeInterrupt_cases s <;> rw [h] <;> exact ⟨rfl, rfl⟩

theorem stageCommand_sameErrors (s : State) : Leads (SameErrors s) (stageCommand s) :=
  leads_orFault fun _ _ => leads_next.2 (sameErrors_capture _ s)

theorem execIWaitRise_sameErrors (s : State) : Leads (SameErrors s) (execIWaitRise s) := by
  unfold execIWaitRise
  split
  · exact stageCommand_sameErrors s
  · exact leads_next.2 ⟨rfl, rfl⟩
  · exact leads_next.2 ⟨rfl, rfl⟩

/-! ### The engine (42_bus_fsm.md R193 to R217) -/

theorem execEIdle_sameErrors (s : State) : Leads (SameErrors s) (execEIdle s) := by
  unfold execEIdle
  split <;> exact leads_next.2 ⟨rfl, rfl⟩

theorem execEReset_sameErrors (s : State) : Leads (SameErrors s) (execEReset s) := by
  unfold execEReset
  split <;> exact leads_next.2 ⟨rfl, rfl⟩

theorem claimStaged_recordsOne (s : State) : Leads (AtMostOneError s) (claimStaged s) := by
  unfold claimStaged
  split_ifs
  · exact leads_next.2 (dropCommand_recordsOne _ s)
  · exact leads_next.2 (dropCommand_recordsOne _ s)
  · refine leads_orFault fun b _ => ?_
    split <;> exact leads_next.2 (.of_same (sameErrors_claimAs _ _ s))

theorem execEEnable_recordsOne (s : State) : Leads (AtMostOneError s) (execEEnable s) := by
  unfold execEEnable
  split
  · exact leads_next.2 (.of_same ⟨rfl, rfl⟩)
  · exact leads_next.2 (.of_same ⟨rfl, rfl⟩)
  · split
    · exact claimStaged_recordsOne s
    · exact leads_next.2 (.of_same ⟨rfl, rfl⟩)

theorem execEClaimWait_recordsOne (s : State) : Leads (AtMostOneError s) (execEClaimWait s) := by
  unfold execEClaimWait
  split
  · exact leads_next.2 (.of_same ⟨rfl, rfl⟩)
  · exact leads_next.2 (dropCommand_recordsOne _ s)
  · exact leads_next.2 (.of_same ⟨rfl, rfl⟩)

theorem assignInit_sameErrors (r : DecRec) (s : State) : Leads (SameErrors s) (assignInit r s) := by
  refine leads_orFault fun t ht => leads_next.2 ?_
  have hsend := sameErrors_startSend ht
  exact hsend

theorem execEDecode_recordsOne (s : State) : Leads (AtMostOneError s) (execEDecode s) := by
  refine withStaged_leads_of_lastChk fun d c v => ?_
  cases d with
  | good r rx =>
    simp only
    split
    · exact (assignInit_sameErrors r { s with lastChk := c, lastChkV := v }).atMostOneError
    · exact leads_next.2 (.of_same ⟨rfl, rfl⟩)
  | bad e rx =>
    simp only
    split <;> exact leads_next.2 (.of_raise (e := e) ⟨rfl, rfl⟩)

theorem execInitAssign_sameErrors (s : State) : Leads (SameErrors s) (execInitAssign s) := by
  refine withStaged_leads_of_lastChk fun d c v => ?_
  cases d with
  | good r rx => exact assignInit_sameErrors r { s with lastChk := c, lastChkV := v }
  | bad e rx => exact leads_next.2 ⟨rfl, rfl⟩

theorem execDispatchCmd_sameErrors (s : State) : Leads (SameErrors s) (execDispatchCmd s) := by
  refine withStaged_leads_of_lastChk fun d c v => ?_
  cases d with
  | good r rx => exact leads_next.2 ⟨rfl, rfl⟩
  | bad e rx => exact leads_next.2 ⟨rfl, rfl⟩

theorem execDispatchIoerror_recordsOne (s : State) : Leads (AtMostOneError s) (execDispatchIoerror s) := by
  refine withStaged_leads_of_lastChk fun d c v => ?_
  cases d with
  | good r rx => exact leads_next.2 (.of_same ⟨rfl, rfl⟩)
  | bad e rx => exact leads_next.2 (.of_raise (e := e) ⟨rfl, rfl⟩)

theorem dispatchCommand_sameErrors (data : List Byte) (s : State) :
    Leads (SameErrors s) (dispatchCommand data s) := by
  refine withStaged_leads_of_lastChk fun d c v => ?_
  cases d with
  | good r rx =>
    simp only
    split <;> exact leads_next.2 ⟨rfl, rfl⟩
  | bad e rx => exact leads_next.2 ⟨rfl, rfl⟩

theorem engStep_recordsOne (s : State) : Leads (AtMostOneError s) (engStep s) := by
  unfold engStep
  cases s.eng with
  | idle => exact (execEIdle_sameErrors s).atMostOneError
  | reset => exact (execEReset_sameErrors s).atMostOneError
  | enable => exact execEEnable_recordsOne s
  | claimWait => exact execEClaimWait_recordsOne s
  | decode => exact execEDecode_recordsOne s
  | initReply => exact leads_next.2 (.of_same ⟨rfl, rfl⟩)
  | device => exact leads_next.2 (.of_same ⟨rfl, rfl⟩)
  | finish => exact leads_next.2 (.of_same ⟨rfl, rfl⟩)

/-! ### Every operation (42_bus_fsm.md R192, 60_exceptions.md R265) -/

theorem execPollDispatch_recordsOne (s : State) : Leads (AtMostOneError s) (execPollDispatch s) := by
  unfold execPollDispatch
  split
  · exact execSWaitRise_recordsOne s
  · exact execSWaitFall_recordsOne s
  · exact execRWaitRise_recordsOne s
  · exact execRWaitFall_recordsOne s
  · split
    · next htake => exact (servePort_recordsOne _ _ _).mono fun _ => .after (sameErrors_takeRequest htake)
    · exact engStep_recordsOne s

/-- An operation records at most one error, whether or not its agent has the step. -/
theorem exec_recordsOne (i : Instr) (s : State) : Leads (AtMostOneError s) (exec i s) := by
  cases i with
  | addDevice who slot dtype => exact execAddDevice_recordsOne who slot dtype s
  | removeDevice who slot => exact execRemoveDevice_recordsOne who slot s
  | setActive who addr v => exact execSetActive_recordsOne who addr v s
  | setActiveSlot who slot v => exact execSetActiveSlot_recordsOne who slot v s
  | deviceByAddr who addr => exact (execDeviceByAddr_sameErrors who addr s).atMostOneError
  | encodePacket who src ptype status n data => exact execEncodePacket_recordsOne who src ptype status n data s
  | decodePacket who n data => exact execDecodePacket_recordsOne who n data s
  | sendReply who ptype status n data => exact execSendReply_recordsOne who ptype status n data s
  | recvData who n => exact (execRecvData_sameErrors who n s).atMostOneError
  | devDone who => exact (execDevDone_sameErrors who s).atMostOneError
  | portReserved who op => exact leads_next.2 (.of_same (sameErrors_refuse who s))
  | pollDispatch => exact execPollDispatch_recordsOne s
  | eIdle => exact (execEIdle_sameErrors s).atMostOneError
  | eReset => exact (execEReset_sameErrors s).atMostOneError
  | eEnable => exact execEEnable_recordsOne s
  | claim => exact claimStaged_recordsOne s
  | eClaimWait => exact execEClaimWait_recordsOne s
  | eDecode => exact execEDecode_recordsOne s
  | initAssign => exact (execInitAssign_sameErrors s).atMostOneError
  | dispatchCmd => exact (execDispatchCmd_sameErrors s).atMostOneError
  | dispatchIoerror => exact execDispatchIoerror_recordsOne s
  | sWaitRise => exact execSWaitRise_recordsOne s
  | sWaitFall => exact execSWaitFall_recordsOne s
  | rWaitRise => exact execRWaitRise_recordsOne s
  | rWaitFall => exact execRWaitFall_recordsOne s
  | isrStart => exact (execIsrStart_sameErrors s).atMostOneError
  | iWaitRise => exact (execIWaitRise_sameErrors s).atMostOneError
  | isrStage => exact (stageCommand_sameErrors s).atMostOneError
  | initCmd => exact leads_next.2 (.of_same (sameErrors_claimAs _ _ s))
  | cmdStatus80 | cmdRead81 | cmdWrite82 | cmdControl84 | cmdOpen86 | cmdClose87 | cmdRead88 | cmdWrite89
  | cmdNone => exact (dispatchCommand_sameErrors _ s).atMostOneError
  | _ => exact leads_next.2 (.of_same ⟨rfl, rfl⟩)

/-! ### The schedule's own actions (00_scope.md R29, 10_state.md R55) -/

/-- What a step can make of the error record. -/
inductive StepErrors (s t : State) : Prop
  | recorded (h : AtMostOneError s t)
  | cleared (hnext : csrWriteNext s = true) (mask : BitVec 16) (hlast : t.lastErr = s.lastErr)
    (hflags : t.errFlags = s.errFlags &&& mask)
  | reset (hnext : powerOnNext s = true) (hok : ErrorsOk t)

theorem StepErrors.of_same {s t : State} (h : SameErrors s t) : StepErrors s t := .recorded (.of_same h)

/-- An outcome of an action that runs no operation: a next state with the property, a code of no operation, or the one
fault of the schedule's own. -/
inductive ActionOutcome (p : State → Prop) : Out → Prop
  | next {t : State} (h : p t) : ActionOutcome p (.next t)
  | undecodable (e : DecodeError) : ActionOutcome p (.refused (.undecodable e))
  | csrAccess : ActionOutcome p (.fault .csrAccess)

/-- What is fetched, where it is no operation, is an action whose next state has the property. -/
def Fetched.Acts (p : State → Prop) : Fetched → Prop
  | .run _ _ => True
  | .done o => ActionOutcome p o

theorem reference_acts (p : State → Prop) (s : State) : (reference s).Acts p := by
  unfold reference
  split <;> trivial

/-- A CSR access goes on from its offset, or stops with fault CSR_ACCESS. -/
theorem actionOutcome_csrOffset {p : State → Prop} {k : Nat → Out} (hk : ∀ off, ActionOutcome p (k off))
    (P : Params) (addr width : Nat) : ActionOutcome p (orFault (csrOffset P addr width) k) := by
  unfold csrOffset
  split
  · exact hk _
  · exact .csrAccess

theorem sameErrors_driveReq (v : Bool) (s : State) : SameErrors s (driveReq v s) := by
  unfold driveReq
  split <;> exact ⟨rfl, rfl⟩

theorem sameErrors_offer (who : Issuer) (r : Request) (s : State) : SameErrors s (offer who r s) := by
  unfold offer
  split
  · exact ⟨rfl, rfl⟩
  · cases who <;> exact ⟨rfl, rfl⟩

/-- The next entry of the schedule, taken off it, where it runs no operation. -/
theorem fetchEntry_acts {s : State} {e : Entry} {rest : List Entry} (hscript : s.script = e :: rest) :
    (fetchEntry e { s with script := rest }).Acts (StepErrors s) := by
  have hskip : StepErrors s { s with script := rest } := .of_same ⟨rfl, rfl⟩
  cases e with
  | code f bs =>
    simp only [fetchEntry, fetchCode]
    split
    · exact .undecodable _
    · split
      · trivial
      · exact .next hskip
  | req v => exact .next (.of_same (sameErrors_driveReq v { s with script := rest }))
  | line bytes => exact .next (.of_same ⟨rfl, rfl⟩)
  | samples xs => exact .next (.of_same ⟨rfl, rfl⟩)
  | readTx k => exact .next (.of_same ⟨rfl, rfl⟩)
  | offer who r => exact .next (.of_same (sameErrors_offer who r { s with script := rest }))
  | csrRead who addr width =>
    simp only [fetchEntry]
    split
    · exact .next hskip
    · exact actionOutcome_csrOffset (fun _ => .next (.of_same ⟨rfl, rfl⟩)) _ addr width
  | csrWrite who addr width v =>
    simp only [fetchEntry]
    split
    · exact .next hskip
    · refine actionOutcome_csrOffset (fun off => ?_) _ addr width
      split
      · exact .next (.cleared (by rw [csrWriteNext, hscript]; rfl) _ rfl rfl)
      · exact .next hskip
  | powerOn => exact .next (.reset (by rw [powerOnNext, hscript]; rfl) (errorsOk_powerOn s.params s.phase s.reqPin))
  | run k =>
    simp only [fetchEntry]
    split
    · exact .next hskip
    · exact reference_acts _ _
  | runUntil c b =>
    simp only [fetchEntry]
    split_ifs
    · exact .next hskip
    · exact .next (.of_same ⟨rfl, rfl⟩)
    · exact reference_acts _ _
  | await who =>
    simp only [fetchEntry]
    split
    · exact .next hskip
    · exact reference_acts _ _
  | expectTx bytes => exact .next (.of_same ⟨rfl, rfl⟩)

theorem fetch_acts (s : State) : (fetch s).Acts (StepErrors s) := by
  unfold fetch
  split
  · exact reference_acts _ s
  · next hscript => exact fetchEntry_acts hscript

/-- A step runs an operation whose agent has it, or is an action of the schedule's own. -/
theorem step_runs_or_acts (s : State) :
    (∃ i s', Scheduled s i s' ∧ step s = exec i s') ∨ ActionOutcome (StepErrors s) (step s) := by
  have hacts := fetch_acts s
  unfold step
  cases hfetch : fetch s with
  | run i s' => exact .inl ⟨i, s', scheduled_of_fetch hfetch, rfl⟩
  | done o =>
    rw [hfetch] at hacts
    exact .inr hacts

/-! ### At most one error a step (60_exceptions.md R264, R265) -/

theorem step_errors {s t : State} (h : step s = .next t) : StepErrors s t := by
  obtain ⟨i, s', ⟨hs', -⟩, hexec⟩ | hacts := step_runs_or_acts s
  · have hsame : SameErrors s s' := by rw [hs']; exact ⟨rfl, rfl⟩
    exact .recorded (.after hsame (exec_recordsOne i s' t (hexec ▸ h)))
  · rw [h] at hacts
    cases hacts with
    | next hp => exact hp

theorem StepErrors.errorsOk {s t : State} (h : StepErrors s t) (hs : ErrorsOk s) : ErrorsOk t := by
  cases h with
  | recorded h => exact h.errorsOk hs
  | cleared _ mask hlast hflags =>
    obtain ⟨hmax, hbadop, hnone⟩ := hs
    have hand : (s.errFlags &&& mask) &&& 0xC401#16 = 0 := by
      rw [BitVec.and_assoc, BitVec.and_comm mask, ← BitVec.and_assoc, hnone]
      exact BitVec.zero_and
    rw [ErrorsOk, hlast, hflags]
    exact ⟨hmax, hbadop, hand⟩
  | reset _ hok => exact hok

theorem StepErrors.atMostOneError {s t : State} (h : StepErrors s t) (hcsr : csrWriteNext s = false)
    (hpower : powerOnNext s = false) : AtMostOneError s t := by
  cases h with
  | recorded h => exact h
  | cleared hnext => exact absurd (hcsr.symm.trans hnext) Bool.false_ne_true
  | reset hnext => exact absurd (hpower.symm.trans hnext) Bool.false_ne_true

/-- Settles O53: both conjuncts follow from what a step can make of the error record. -/
theorem everyStepRecordsAtMostOneError : Obligations.EveryStepRecordsAtMostOneError := fun _ _ hstep =>
  ⟨(step_errors hstep).errorsOk, (step_errors hstep).atMostOneError⟩

/-! ### Every operation completes on valid buffers (20_memory.md R62, R63, 60_exceptions.md R275) -/

theorem stageCommand_completes (s : State) : Completes (stageCommand s) := ⟨_, stageCommand_eq s⟩

theorem execIWaitRise_completes (s : State) : Completes (execIWaitRise s) := by
  unfold execIWaitRise
  split
  · exact stageCommand_completes s
  · exact completes_next _
  · exact completes_next _

/-- The staged body can be read, so its decode goes on. -/
theorem withStaged_completes {s : State} {k : DecodeResult → State → Out}
    (h : BufferOk s.params.bufLen s.mb s.mbLen)
    (hk : ∀ d c v, Completes (k d { s with lastChk := c, lastChkV := v })) : Completes (withStaged s k) := by
  obtain ⟨b, hb⟩ := h.memRead
  refine completes_orFault hb ?_
  rw [runDecode_state]
  exact hk _ _ _

theorem assignInit_completes {s : State} (hbuf : 17 ≤ s.params.bufLen) (r : DecRec) : Completes (assignInit r s) :=
  ⟨_, assignInit_of_fits hbuf r⟩

theorem execInitAssign_completes {s : State} (hbuf : 17 ≤ s.params.bufLen)
    (h : BufferOk s.params.bufLen s.mb s.mbLen) : Completes (execInitAssign s) := by
  refine withStaged_completes h fun d c v => ?_
  cases d with
  | good r rx => exact assignInit_completes (s := { s with lastChk := c, lastChkV := v }) hbuf r
  | bad e rx => exact completes_next _

theorem execDispatchCmd_completes {s : State} (h : BufferOk s.params.bufLen s.mb s.mbLen) :
    Completes (execDispatchCmd s) := by
  refine withStaged_completes h fun d c v => ?_
  cases d <;> exact completes_next _

theorem execDispatchIoerror_completes {s : State} (h : BufferOk s.params.bufLen s.mb s.mbLen) :
    Completes (execDispatchIoerror s) := by
  refine withStaged_completes h fun d c v => ?_
  cases d <;> exact completes_next _

theorem dispatchCommand_completes {s : State} (h : BufferOk s.params.bufLen s.mb s.mbLen) (data : List Byte) :
    Completes (dispatchCommand data s) := by
  refine withStaged_completes h fun d c v => ?_
  cases d with
  | good r rx =>
    simp only
    split <;> exact completes_next _
  | bad e rx => exact completes_next _

/-- An operation ends in a next state where its agent has the step, a packet of no payload fits a buffer (00_scope.md
R8), and the buffers are valid. A port operation is the service of a request with its op code, an ENG step that of its
state. -/
theorem exec_completes {i : Instr} {s : State} (hen : enabled i s = true) (hbuf : 17 ≤ s.params.bufLen)
    (h : BuffersOk s) : Completes (exec i s) := by
  obtain ⟨htx, hrx, hmb⟩ := id h
  cases i with
  | addDevice who slot dtype => exact servePort_completes hbuf who ⟨0x01#8, slot, dtype, 0, 0, []⟩
  | removeDevice who slot => exact servePort_completes hbuf who ⟨0x02#8, slot, 0, 0, 0, []⟩
  | setActive who addr v => exact servePort_completes hbuf who ⟨0x03#8, addr, v, 0, 0, []⟩
  | setActiveSlot who slot v => exact servePort_completes hbuf who ⟨0x04#8, slot, v, 0, 0, []⟩
  | deviceByAddr who addr => exact servePort_completes hbuf who ⟨0x05#8, addr, 0, 0, 0, []⟩
  | encodePacket who src ptype status n data =>
    exact servePort_completes hbuf who ⟨0x10#8, src, ptype, status, n, data⟩
  | decodePacket who n data => exact servePort_completes hbuf who ⟨0x11#8, 0, 0, 0, n, data⟩
  | sendReply who ptype status n data => exact servePort_completes hbuf who ⟨0x20#8, ptype, status, 0, n, data⟩
  | recvData who n => exact servePort_completes hbuf who ⟨0x21#8, 0, 0, 0, n, []⟩
  | devDone who => exact servePort_completes hbuf who ⟨0x2F#8, 0, 0, 0, 0, []⟩
  | pollDispatch => exact execPollDispatch_completes hbuf h
  | eIdle | eReset | eEnable | eClaimWait | eDecode | eInitReply | eDevice | eFinish =>
    obtain ⟨-, -, -, heng⟩ := engEnabled_iff.1 hen
    have hstep := engStep_completes hbuf hmb
    rw [engStep, heng] at hstep
    exact hstep
  | claim => exact claimStaged_completes hmb
  | initAssign => exact execInitAssign_completes hbuf hmb
  | dispatchCmd => exact execDispatchCmd_completes hmb
  | dispatchIoerror => exact execDispatchIoerror_completes hmb
  | sWaitRise => exact execSWaitRise_completes htx
  | sWaitFall => exact execSWaitFall_completes s
  | rWaitRise => exact execRWaitRise_completes s
  | rWaitFall => exact execRWaitFall_completes hrx
  | iWaitRise => exact execIWaitRise_completes s
  | isrStage => exact stageCommand_completes s
  | cmdStatus80 | cmdRead81 | cmdWrite82 | cmdControl84 | cmdOpen86 | cmdClose87 | cmdRead88 | cmdWrite89
  | cmdNone => exact dispatchCommand_completes hmb _
  | _ => exact completes_next _

/-! ### No buffer fault (60_exceptions.md R275) -/

theorem Completes.noBufferFault {o : Out} (h : Completes o) : NoBufferFault o := by
  obtain ⟨t, rfl⟩ := h
  exact ⟨nofun, nofun⟩

theorem ActionOutcome.noBufferFault {p : State → Prop} {o : Out} (h : ActionOutcome p o) : NoBufferFault o := by
  cases h <;> exact ⟨nofun, nofun⟩

/-- Settles O50: an operation completes, its parameters and buffers being those of the state it was fetched in, and the
schedule's own actions read and write no buffer. -/
theorem noStepFaultsOnBuffers : Obligations.NoStepFaultsOnBuffers := by
  intro s ⟨hbuf, _⟩ h
  obtain ⟨i, s', ⟨hs', hen⟩, hexec⟩ | hacts := step_runs_or_acts s
  · have hbuf' : 17 ≤ s'.params.bufLen := by rw [hs']; exact hbuf
    have h' : BuffersOk s' := by rw [hs']; exact h
    exact hexec ▸ (exec_completes hen hbuf' h').noBufferFault
  · exact hacts.noBufferFault

end Sys2Proof.Machine
end
